-- ==== Sys2Proof/Word.lean ====
section
/-! DEFINITION. The bytes and 16-bit generations of the part (13_formats: multi-byte fields are two bytes), and
fixed-size tables: the plain containers every other file is written over. -/

namespace Sys2Proof

/-- One byte, as it crosses a port or lies in the array. -/
abbrev Byte := BitVec 8

/-- A 16-bit generation field (R10, R25, R28). -/
abbrev Gen := BitVec 16

/-- A fixed number of like things, numbered from 0: the 128 slots (R1), the 128 locks (R83), the bytes of a buffer. -/
structure Table (n : Nat) (α : Type) where
  cells : List α
  size : cells.length = n
  deriving DecidableEq, Repr

namespace Table

variable {n : Nat} {α β γ : Type}

def get (t : Table n α) (i : Fin n) : α := t.cells[i.val]'(t.size.symm ▸ i.isLt)

def set (t : Table n α) (i : Fin n) (v : α) : Table n α := ⟨t.cells.set i v, by simp [t.size]⟩

def fill (n : Nat) (v : α) : Table n α := ⟨List.replicate n v, by simp⟩

def map (f : α → β) (t : Table n α) : Table n β := ⟨t.cells.map f, by simp [t.size]⟩

def zipWith (f : α → β → γ) (t : Table n α) (u : Table n β) : Table n γ :=
  ⟨List.zipWith f t.cells u.cells, by simp [t.size, u.size]⟩

/-- The first `n` members of a list, made up to `n` with `v`. -/
def ofList (n : Nat) (v : α) (l : List α) : Table n α :=
  ⟨(l ++ List.replicate n v).take n, by simp⟩

end Table

end Sys2Proof
end

