-- ==== Sys2Proof/Config.lean ====
section
/-! DEFINITION. What is fixed for every Hawtren 4128: the geometry of the array (R18, R23), the sizes of buffers and
queues, the longest body. The manual leaves no value of a result open: what it leaves to the array (which bits a
failed step changed) reaches the model as an operand of the event (log 7). -/

namespace Sys2Proof.Config

/-- Bytes of a page, pages of a plane, bytes of a plane (R18). -/
def pageBytes : Nat := 32
def planePages : Nat := 2048
def planeBytes : Nat := 65536

/-- Pages 0 to 24 of each plane are the layout area (R23). -/
def layoutPages : Nat := 25

/-- What a byte of the array that nothing has written reads as: erased (R20). DESIGN CHOICE, log 3, unsafe: the
manual gives no contents of a new part but calls a part that mounts UNFORMATTED blank (12.6, R30). -/
def blankByte : Byte := 0xFF

/-- The longest record (R2), the longest body of a REQUEST frame (R169), the most bytes the frame receiver keeps (R166),
the most notices of a queue (R115) and the attempts made on one page (R69). -/
def maxLength : Nat := 248
def maxBody : Nat := 252
def maxFrame : Nat := 257
def maxNotices : Nat := 8
def maxAttempts : Nat := 3

end Sys2Proof.Config
end

