-- ==== Sys2Proof/Syntax.lean ====
section
/-! DEFINITION. The names commands are made of (ports, planes, record numbers, reset sources) and the commands
themselves: one constructor of `Instr` per row of spec/opcode_table.json. A REQUEST frame is carried as its port, tag
and body bytes (R169); what the body means is judged by the request's owner (R170). -/

namespace Sys2Proof

/-- The four ports, with indices 0 to 3 (00_scope, Conventions). -/
inductive Port where
  | a | b | c | d
  deriving DecidableEq, Repr

/-- One value for each port. -/
structure PerPort (α : Type) where
  a : α
  b : α
  c : α
  d : α
  deriving DecidableEq, Repr

namespace PerPort

variable {α : Type}

def get (x : PerPort α) : Port → α
  | .a => x.a
  | .b => x.b
  | .c => x.c
  | .d => x.d

def set (x : PerPort α) (p : Port) (v : α) : PerPort α :=
  match p with
  | .a => { x with a := v }
  | .b => { x with b := v }
  | .c => { x with c := v }
  | .d => { x with d := v }

def all (v : α) : PerPort α := ⟨v, v, v, v⟩

end PerPort

/-- A port set (00_scope, Terms): for each port, whether it is a member. -/
abbrev PortSet := PerPort Bool

namespace PortSet

def empty : PortSet := PerPort.all false

def isEmpty (x : PortSet) : Bool := !(x.a || x.b || x.c || x.d)

end PortSet

/-- The two planes; copy 0 of a record or of the layout lies in plane 0 and copy 1 in plane 1 (R23, R24). -/
inductive Plane where
  | p0 | p1
  deriving DecidableEq, Repr

namespace Plane

def other : Plane → Plane
  | .p0 => .p1
  | .p1 => .p0

end Plane

/-- A record number, 0 to 127 (R1). -/
abbrev RecNo := Fin 128

/-- The 32 bytes of a page (R18), or one bit for each bit of a page. -/
abbrev PageBytes := Table 32 Byte

/-- The four sources of a device reset, which are also the four reset causes (R157, R161). -/
inductive ResetSource where
  | powerOn | supply | pin | restart
  deriving DecidableEq, Repr

/-- Which part of a frame on a port is taken (log 5): the whole frame with nothing between, or one of the instants and
spans the manual lets other events fall between (R166, R167, R174): the fall of chip select, the clocking of the frame's
bits, the rise of chip select, and, for a request, the writing of its response. -/
inductive FramePart where
  | whole | fall | clock | rise | reply
  deriving DecidableEq, Repr

/-- The commands: every row of the table of operations and events. A frame is taken whole unless its part says
otherwise. -/
inductive Instr where
  -- requests answered by the port interface and the directory
  | nop (p : Port) (tag : Byte) (body : List Byte) (part : FramePart := .whole)
  | queryRecord (p : Port) (tag : Byte) (body : List Byte) (part : FramePart := .whole)
  | readRecord (p : Port) (tag : Byte) (body : List Byte) (part : FramePart := .whole)
  | deviceStatus (p : Port) (tag : Byte) (body : List Byte) (part : FramePart := .whole)
  -- requests of the session controller and the commit queue
  | openRecord (p : Port) (tag : Byte) (body : List Byte) (part : FramePart := .whole)
  | stage (p : Port) (tag : Byte) (body : List Byte) (part : FramePart := .whole)
  | append (p : Port) (tag : Byte) (body : List Byte) (part : FramePart := .whole)
  | commit (p : Port) (tag : Byte) (body : List Byte) (part : FramePart := .whole)
  | abandon (p : Port) (tag : Byte) (body : List Byte) (part : FramePart := .whole)
  | fetchCommitResult (p : Port) (tag : Byte) (body : List Byte) (part : FramePart := .whole)
  -- requests of the lock table
  | lock (p : Port) (tag : Byte) (body : List Byte) (part : FramePart := .whole)
  | unlock (p : Port) (tag : Byte) (body : List Byte) (part : FramePart := .whole)
  | fetchLockReport (p : Port) (tag : Byte) (body : List Byte) (part : FramePart := .whole)
  -- requests of the notice and attention unit
  | watch (p : Port) (tag : Byte) (body : List Byte) (part : FramePart := .whole)
  | unwatch (p : Port) (tag : Byte) (body : List Byte) (part : FramePart := .whole)
  | fetchNotice (p : Port) (tag : Byte) (body : List Byte) (part : FramePart := .whole)
  | acknowledge (p : Port) (tag : Byte) (body : List Byte) (part : FramePart := .whole)
  | setAttentionMask (p : Port) (tag : Byte) (body : List Byte) (part : FramePart := .whole)
  -- requests of layout administration
  | format (p : Port) (tag : Byte) (body : List Byte) (part : FramePart := .whole)
  | define (p : Port) (tag : Byte) (body : List Byte) (part : FramePart := .whole)
  | delete (p : Port) (tag : Byte) (body : List Byte) (part : FramePart := .whole)
  | setAccess (p : Port) (tag : Byte) (body : List Byte) (part : FramePart := .whole)
  | restart (p : Port) (tag : Byte) (body : List Byte) (part : FramePart := .whole)
  -- the other frames: FETCH and POLL with the bytes sent after the type; a frame in error with its bytes and the count
  -- of bits after the last whole byte
  | fetch (p : Port) (sent : List Byte) (part : FramePart := .whole)
  | poll (p : Port) (sent : List Byte) (part : FramePart := .whole)
  | frameError (p : Port) (bytes : List Byte) (extraBits : Nat) (part : FramePart := .whole)
  -- the end of a read's tenure of a plane
  | readTenureEnd (pl : Plane)
  | openCopyLoad (pl : Plane)
  -- the program engine; the operand of an attempt says which bits it changed (log 7)
  | engineStart
  | eraseAttemptDone (raised : PageBytes)
  | programAttemptDone (cleared : PageBytes)
  | invalidationStep (cleared : PageBytes)
  -- the timebase and the expiries
  | timebasePeriodEnd
  | leaseExpiry (r : RecNo)
  | waitExpiry (r : RecNo) (p : Port)
  -- the supply monitor
  | supplyWarningRaised
  | supplyWarningRemoved
  -- the clear lines; the rise finds the port's chip select at a level
  | portClear (p : Port)
  | portClearRelease (p : Port) (csLow : Bool)
  -- the device resets; the operand says which bits of a page step under way had been changed (log 7)
  | powerOnReset (cut : PageBytes)
  | supplyReset (cut : PageBytes)
  | pinReset (cut : PageBytes)
  | restartReset (cut : PageBytes)
  -- the release, with the strap levels it samples and the chip selects it finds low
  | resetRelease (straps : BitVec 2) (csLow : PortSet)
  -- mount
  | mountStart
  | mountLayoutSelected
  | mountSlotSet
  -- a source that is not the last lets go
  | sourceLetsGo (src : ResetSource)
  deriving DecidableEq, Repr

end Sys2Proof
end

