-- ==== Sys2Proof/WellFormed.lean ====
section
/-! DEFINITION. Which commands are well formed: the limits the frame layer puts on what reaches the part. A body has
at most 252 bytes (R169); a frame in error has at least one bit, fewer than 8 of them after its last whole byte
(R166); only a request has a response to be written (R166, R171). Every other command is well formed as it is typed. -/

namespace Sys2Proof

/-- The body of a REQUEST frame is 0 to 252 bytes (R169). -/
def bodyOk (body : List Byte) : Bool := decide (body.length ≤ Config.maxBody)

/-- A command that a controller, the board or the part itself can put to the part. -/
def Instr.wf : Instr → Bool
  | .nop _ _ b _ | .queryRecord _ _ b _ | .readRecord _ _ b _ | .deviceStatus _ _ b _ | .openRecord _ _ b _ | .stage _ _ b _
  | .append _ _ b _ | .commit _ _ b _ | .abandon _ _ b _ | .fetchCommitResult _ _ b _ | .lock _ _ b _ | .unlock _ _ b _
  | .fetchLockReport _ _ b _ | .watch _ _ b _ | .unwatch _ _ b _ | .fetchNotice _ _ b _ | .acknowledge _ _ b _
  | .setAttentionMask _ _ b _ | .format _ _ b _ | .define _ _ b _ | .delete _ _ b _ | .setAccess _ _ b _
  | .restart _ _ b _ => bodyOk b
  | .fetch _ _ part | .poll _ _ part => decide (part ≠ .reply)
  | .frameError _ bytes extra part =>
    decide (extra < 8) && (decide (bytes ≠ []) || decide (extra ≠ 0)) && decide (part ≠ .reply)
  | .readTenureEnd _ | .openCopyLoad _ | .engineStart | .eraseAttemptDone _ | .programAttemptDone _
  | .invalidationStep _ | .timebasePeriodEnd | .leaseExpiry _ | .waitExpiry _ _ | .supplyWarningRaised
  | .supplyWarningRemoved | .portClear _ | .portClearRelease _ _ | .powerOnReset _ | .supplyReset _ | .pinReset _
  | .restartReset _ | .resetRelease _ _ | .mountStart | .mountLayoutSelected | .mountSlotSet
  | .sourceLetsGo _ => true

end Sys2Proof
end

