-- ==== Sys2Proof/Decode.lean ====
section
/-! DEFINITION. From the bytes of a frame to a command, and back (R166, R169, R170, R180, R181). The table of
commands gives no row any bits, so `decodeTableWord` answers none for every word. -/

namespace Sys2Proof

/-- The command a table word spells: the table gives no bits for any row, so no word spells one. -/
def decodeTableWord (_nbits _w : Nat) : Option Instr := none

/-- One bit of the CRC-8 of R169: polynomial x^8 + x^2 + x + 1 (0x07), most significant bit first. -/
def crc8Shift (r : Byte) : Byte := if r.msb then (r <<< 1) ^^^ 0x07 else r <<< 1

def crc8Byte (r b : Byte) : Byte :=
  crc8Shift (crc8Shift (crc8Shift (crc8Shift (crc8Shift (crc8Shift (crc8Shift (crc8Shift (r ^^^ b))))))))

/-- The CRC-8 of R169 over a list of bytes: the register starts at 0x00; neither reversed nor inverted. -/
def crc8 (bytes : List Byte) : Byte := bytes.foldl crc8Byte 0

/-- The 23 request codes of R181. -/
inductive RequestCode where
  | nop | queryRecord | readRecord | deviceStatus
  | openRecord | stage | append | commit | abandon | fetchCommitResult
  | lock | unlock | fetchLockReport
  | watch | unwatch | fetchNotice | acknowledge | setAttentionMask
  | format | define | delete | setAccess | restart
  deriving DecidableEq, Repr

/-- The code byte of a request (R181). -/
def RequestCode.toByte : RequestCode → Byte
  | .nop => 0x00
  | .queryRecord => 0x01
  | .readRecord => 0x02
  | .deviceStatus => 0x03
  | .openRecord => 0x10
  | .stage => 0x11
  | .append => 0x12
  | .commit => 0x13
  | .abandon => 0x14
  | .fetchCommitResult => 0x15
  | .lock => 0x20
  | .unlock => 0x21
  | .fetchLockReport => 0x22
  | .watch => 0x30
  | .unwatch => 0x31
  | .fetchNotice => 0x32
  | .acknowledge => 0x33
  | .setAttentionMask => 0x34
  | .format => 0x40
  | .define => 0x41
  | .delete => 0x42
  | .setAccess => 0x43
  | .restart => 0x44

/-- The request a code byte names; every other byte names none, and its frame is a frame error (R170, R180). -/
def RequestCode.ofByte (b : Byte) : Option RequestCode :=
  match b.toNat with
  | 0x00 => some .nop
  | 0x01 => some .queryRecord
  | 0x02 => some .readRecord
  | 0x03 => some .deviceStatus
  | 0x10 => some .openRecord
  | 0x11 => some .stage
  | 0x12 => some .append
  | 0x13 => some .commit
  | 0x14 => some .abandon
  | 0x15 => some .fetchCommitResult
  | 0x20 => some .lock
  | 0x21 => some .unlock
  | 0x22 => some .fetchLockReport
  | 0x30 => some .watch
  | 0x31 => some .unwatch
  | 0x32 => some .fetchNotice
  | 0x33 => some .acknowledge
  | 0x34 => some .setAttentionMask
  | 0x40 => some .format
  | 0x41 => some .define
  | 0x42 => some .delete
  | 0x43 => some .setAccess
  | 0x44 => some .restart
  | _ => none

/-- The command of a request on a port, or of one part of its frame. -/
def RequestCode.command (c : RequestCode) (p : Port) (tag : Byte) (body : List Byte) (part : FramePart := .whole) :
    Instr :=
  match c with
  | .nop => .nop p tag body part
  | .queryRecord => .queryRecord p tag body part
  | .readRecord => .readRecord p tag body part
  | .deviceStatus => .deviceStatus p tag body part
  | .openRecord => .openRecord p tag body part
  | .stage => .stage p tag body part
  | .append => .append p tag body part
  | .commit => .commit p tag body part
  | .abandon => .abandon p tag body part
  | .fetchCommitResult => .fetchCommitResult p tag body part
  | .lock => .lock p tag body part
  | .unlock => .unlock p tag body part
  | .fetchLockReport => .fetchLockReport p tag body part
  | .watch => .watch p tag body part
  | .unwatch => .unwatch p tag body part
  | .fetchNotice => .fetchNotice p tag body part
  | .acknowledge => .acknowledge p tag body part
  | .setAttentionMask => .setAttentionMask p tag body part
  | .format => .format p tag body part
  | .define => .define p tag body part
  | .delete => .delete p tag body part
  | .setAccess => .setAccess p tag body part
  | .restart => .restart p tag body part

/-- The bytes a controller sends for a request, without the CRC (R169). -/
def requestHead (c : RequestCode) (tag : Byte) (body : List Byte) : List Byte :=
  0xA1 :: c.toByte :: tag :: BitVec.ofNat 8 body.length :: body

/-- The REQUEST frame of R169: type, code, tag, body length, body, CRC-8 of all before it. -/
def requestFrameBytes (c : RequestCode) (tag : Byte) (body : List Byte) : List Byte :=
  requestHead c tag body ++ [crc8 (requestHead c tag body)]

/-- A well-formed REQUEST frame's code, tag and body, by check 1 of R170; none for a frame error. -/
def parseRequest (bytes : List Byte) : Option (RequestCode × Byte × List Byte) :=
  match bytes with
  | _ :: code :: tag :: len :: rest =>
    let body := rest.take len.toNat
    if len.toNat ≤ Config.maxBody ∧ rest.length = len.toNat + 1 ∧
        rest.getLast? = some (crc8 (bytes.take (4 + len.toNat))) then
      (RequestCode.ofByte code).map fun c => (c, tag, body)
    else none
  | _ => none

/-- How a frame that the receiver took is judged at the rise of chip select (R166, R170). -/
inductive FrameVerdict where
  | noFrame
  | request (code : RequestCode) (tag : Byte) (body : List Byte)
  | fetch
  | poll
  | frameError
  deriving DecidableEq, Repr

/-- The table of R166, with check 1 of R170 for a REQUEST frame. -/
def frameVerdict (bytes : List Byte) (extraBits : Nat) : FrameVerdict :=
  if bytes = [] ∧ extraBits = 0 then .noFrame
  else if extraBits ≠ 0 then .frameError
  else
    match bytes.head? with
    | none => .noFrame
    | some t =>
      if t = 0xA1 then
        match parseRequest bytes with
        | some (c, tag, body) => .request c tag body
        | none => .frameError
      else if t = 0xA2 then .fetch
      else if t = 0xA3 then .poll
      else .frameError

/-- The command that a whole frame on a port is: none where no bit was clocked. -/
def decodeFrame (p : Port) (bytes : List Byte) (extraBits : Nat) : Option Instr :=
  match frameVerdict bytes extraBits with
  | .noFrame => none
  | .request c tag body => some (c.command p tag body)
  | .fetch => some (.fetch p bytes.tail)
  | .poll => some (.poll p bytes.tail)
  | .frameError => some (.frameError p bytes extraBits)

/-- A frame that makes a command, where the command is a whole frame: the REQUEST frame of R169, a FETCH or POLL frame
with the bytes sent after its type, the bytes of a frame in error. -/
def encodeFrame : Instr → Option (Port × List Byte × Nat)
  | .nop p t b .whole => some (p, requestFrameBytes .nop t b, 0)
  | .queryRecord p t b .whole => some (p, requestFrameBytes .queryRecord t b, 0)
  | .readRecord p t b .whole => some (p, requestFrameBytes .readRecord t b, 0)
  | .deviceStatus p t b .whole => some (p, requestFrameBytes .deviceStatus t b, 0)
  | .openRecord p t b .whole => some (p, requestFrameBytes .openRecord t b, 0)
  | .stage p t b .whole => some (p, requestFrameBytes .stage t b, 0)
  | .append p t b .whole => some (p, requestFrameBytes .append t b, 0)
  | .commit p t b .whole => some (p, requestFrameBytes .commit t b, 0)
  | .abandon p t b .whole => some (p, requestFrameBytes .abandon t b, 0)
  | .fetchCommitResult p t b .whole => some (p, requestFrameBytes .fetchCommitResult t b, 0)
  | .lock p t b .whole => some (p, requestFrameBytes .lock t b, 0)
  | .unlock p t b .whole => some (p, requestFrameBytes .unlock t b, 0)
  | .fetchLockReport p t b .whole => some (p, requestFrameBytes .fetchLockReport t b, 0)
  | .watch p t b .whole => some (p, requestFrameBytes .watch t b, 0)
  | .unwatch p t b .whole => some (p, requestFrameBytes .unwatch t b, 0)
  | .fetchNotice p t b .whole => some (p, requestFrameBytes .fetchNotice t b, 0)
  | .acknowledge p t b .whole => some (p, requestFrameBytes .acknowledge t b, 0)
  | .setAttentionMask p t b .whole => some (p, requestFrameBytes .setAttentionMask t b, 0)
  | .format p t b .whole => some (p, requestFrameBytes .format t b, 0)
  | .define p t b .whole => some (p, requestFrameBytes .define t b, 0)
  | .delete p t b .whole => some (p, requestFrameBytes .delete t b, 0)
  | .setAccess p t b .whole => some (p, requestFrameBytes .setAccess t b, 0)
  | .restart p t b .whole => some (p, requestFrameBytes .restart t b, 0)
  | .fetch p sent .whole => some (p, 0xA2 :: sent, 0)
  | .poll p sent .whole => some (p, 0xA3 :: sent, 0)
  | .frameError p bytes extra .whole => if frameVerdict bytes extra = .frameError then some (p, bytes, extra) else none
  | _ => none

end Sys2Proof
end

