-- ==== Sys2Proof/Machine/State.lean ====
section
/-! DEFINITION. Everything the manual gives the part: the array, the ports' transport state, the sessions, the record
directory, the commit queue and program engine, the plane arbiters and reads in progress, the lock table, the notice
and attention unit, the mount sequencer and reset control; the queue of commands that wait; and the state right after
reset. Plain data throughout. -/

namespace Sys2Proof.Machine

/-! ## The array (R18) -/

/-- The nonvolatile array: the bytes that differ from the blank byte, by address, strictly rising (log 3). -/
abbrev Mem := List Host.Cell

/-! ## Transport, one per port (chapter 11) -/

/-- The last frame outcome (R168). -/
inductive FrameOutcome where
  | none | accepted | busy | frameError
  deriving DecidableEq, Repr

/-- The result codes of R182. -/
inductive ResultCode where
  | ok | queued | waiting | none | noResponse
  | notReady | noRecord | noAccess | range | empty | damaged | state | overrun | stale | locked | notHolder | inUse
  | exists | overlap | power | restarting | notAdmin | fault
  deriving DecidableEq, Repr

/-- A response: the tag of the request it answers, a result code, a body (R173). -/
structure Response where
  tag : Byte
  code : ResultCode
  body : List Byte
  deriving DecidableEq, Repr

/-- The nine event flags (R120), or the enables of an attention mask (R122). -/
structure Flags where
  commitDone : Bool
  lockGranted : Bool
  lockTimeout : Bool
  leaseLost : Bool
  noticePending : Bool
  noticeOverflow : Bool
  layoutChanged : Bool
  supplyWarn : Bool
  resetSeen : Bool
  deriving DecidableEq, Repr

/-- A frame that a port takes: what the fall of chip select fixed (the status byte, a copy of the response slot with
the tag of the request in progress or 0, the nine flags: R167, R175, R176), and what has come in since: the count of
bits and the bytes, up to 257 (R166). -/
structure FrameIn where
  status : Byte
  slot : Option Response
  tag : Byte
  flags : Flags
  bits : Nat
  bytes : List Byte
  deriving DecidableEq, Repr

/-- The frame receiver's state (R166): IDLE between frames, RECEIVING in a frame it takes, IGNORING in a frame it does
not take. -/
inductive ReceiverState where
  | idle
  | receiving (frame : FrameIn)
  | ignoring
  deriving DecidableEq, Repr

/-- What a port shifted out in a frame: whole bytes, and the bits of a last partial byte (log 6). -/
structure FrameOut where
  bytes : List Byte
  tail : List Bool
  deriving DecidableEq, Repr

/-- A port's transport state (R179). `due` is the response its request's owner decided at the taking, until it is
written to the slot (R171, R172, R174). `sdo` is the model's own: what the port shifted out in the last frame it took. -/
structure PortIf where
  receiver : ReceiverState
  outcome : FrameOutcome
  inProgress : Option Byte
  due : Option Response
  response : Option Response
  sdo : FrameOut
  deriving DecidableEq, Repr

/-- R179, column "After device reset". -/
def PortIf.reset : PortIf :=
  { receiver := .idle, outcome := .none, inProgress := none, due := none, response := none, sdo := ⟨[], []⟩ }

/-! ## Sessions, one per port (chapter 3) -/

inductive SessionState where
  | idle | staging | queued | programming
  deriving DecidableEq, Repr

/-- The session record and its staging buffer (R39, R40). -/
structure Session where
  state : SessionState
  record : Option RecNo
  baseGen : Gen
  fill : Nat
  overrun : Bool
  buffer : Table 248 Byte
  deriving DecidableEq, Repr

/-- A buffer of 248 bytes, all 0x00: an emptied staging buffer (R40). -/
def emptyBuffer : Table 248 Byte := Table.fill 248 0

/-- R39 and R40: the values after a device reset, which are the IDLE values. -/
def Session.reset : Session :=
  { state := .idle, record := none, baseGen := 0, fill := 0, overrun := false, buffer := emptyBuffer }

/-! ## The record directory (chapter 1, R128) -/

/-- The persistent part of a defined slot, which is also a defined layout entry (R2). -/
structure LayoutEntry where
  length : Nat
  basePage : Nat
  readSet : PortSet
  writeSet : PortSet
  guarded : Bool
  deriving DecidableEq, Repr

/-- A slot's state with its current copy and generation: only VALID has either (1.2, R4), log 14. -/
inductive Content where
  | undefined
  | empty
  | valid (current : Plane) (generation : Gen)
  | damaged
  deriving DecidableEq, Repr

/-- One slot: the persistent part, absent where the slot is not defined (R2), and the runtime part (R3). -/
structure Slot where
  entry : Option LayoutEntry
  content : Content
  watch : PortSet
  deletePending : Bool
  deriving DecidableEq, Repr

/-- An undefined slot (R2, R17). -/
def Slot.undefined : Slot :=
  { entry := none, content := .undefined, watch := PortSet.empty, deletePending := false }

/-- The two layout fields where there is a layout; their values 0 and none are its absence (R128), log 14. -/
structure LayoutVersion where
  current : Plane
  generation : Gen
  deriving DecidableEq, Repr

/-- The record directory: 128 slots (R1) and the layout fields (R128). -/
structure Directory where
  slots : Table 128 Slot
  layout : Option LayoutVersion
  deriving DecidableEq, Repr

/-- R17, R128: every slot undefined, the layout fields 0 and none. -/
def Directory.reset : Directory := { slots := Table.fill 128 Slot.undefined, layout := none }

/-! ## Commit queue and program engine (chapter 4) -/

inductive Condition where
  | any | matching
  deriving DecidableEq, Repr

/-- A layout operation with its parameters (R129 to R133). -/
inductive LayoutOp where
  | format
  | define (r : RecNo) (e : LayoutEntry)
  | delete (r : RecNo)
  | setAccess (r : RecNo) (readSet writeSet : PortSet) (guarded : Bool)
  deriving DecidableEq, Repr

/-- What an entry asks for: kind RECORD or kind LAYOUT (R59). -/
inductive Work where
  | record (r : RecNo) (cond : Condition) (baseGen : Gen)
  | layout (op : LayoutOp)
  deriving DecidableEq, Repr

/-- A commit queue entry (R59). -/
structure Entry where
  port : Port
  work : Work
  deriving DecidableEq, Repr

/-- The kinds the result slot and DEVICE STATUS report (R73, R182). -/
inductive EntryKind where
  | record | format | define | delete | setAccess
  deriving DecidableEq, Repr

/-- A commit result slot's content (R73); record none stands for 0xFF. -/
structure CommitResult where
  record : Option RecNo
  kind : EntryKind
  result : ResultCode
  generation : Gen
  deriving DecidableEq, Repr

/-- The engine's state (R63). CHECK and DONE are instants inside a command and never stand between two (log 15). -/
inductive EngineState where
  | idle | check | erase | program | done
  deriving DecidableEq, Repr

/-- The phases of an entry's page steps (R68, R70, R135, R136). -/
inductive Phase where
  | extentErase (pl : Plane)
  | formatFirst
  | formatSecond
  | erase
  | program
  | invalidate
  deriving DecidableEq, Repr

/-- The step: page k of m of the current phase (R63). -/
structure EngineStep where
  phase : Phase
  k : Nat
  m : Nat
  deriving DecidableEq, Repr

/-- The engine buffer: 248 bytes, or the 25 pages of a layout image (R63). -/
inductive EngineBuffer where
  | data (b : Table 248 Byte)
  | image (b : Table 800 Byte)
  deriving DecidableEq, Repr

/-- The program engine (R63), with the base page and length of a RECORD entry taken at its start (R27, R68). -/
structure Engine where
  state : EngineState
  entry : Option Entry
  detached : Bool
  target : Option Plane
  newGen : Gen
  step : Option EngineStep
  attempt : Nat
  buffer : EngineBuffer
  basePage : Nat
  length : Nat
  deriving DecidableEq, Repr

/-- R63, column "After device reset"; also what the end of an entry leaves. -/
def Engine.reset : Engine :=
  { state := .idle, entry := none, detached := false, target := none, newGen := 0, step := none, attempt := 0,
    buffer := .data emptyBuffer, basePage := 0, length := 0 }

/-! ## Plane arbiters and reads in progress (2.7, chapter 6) -/

/-- An arbiter's holder (R32). A read whose port was cleared holds on to its end as a discarded one (R110), log 13. -/
inductive Holder where
  | none
  | read (p : Port)
  | discarded (p : Port) (isOpen : Bool)
  | engine
  | mount
  deriving DecidableEq, Repr

/-- A plane arbiter (R32). -/
structure Arbiter where
  holder : Holder
  waiting : PortSet
  engineWaiting : Bool
  pointer : Port
  deriving DecidableEq, Repr

/-- R32, column "After device reset". -/
def Arbiter.reset : Arbiter :=
  { holder := .none, waiting := PortSet.empty, engineWaiting := false, pointer := .d }

/-- One value for each plane. -/
structure PerPlane (α : Type) where
  p0 : α
  p1 : α
  deriving DecidableEq, Repr

namespace PerPlane

variable {α : Type}

def get (x : PerPlane α) : Plane → α
  | .p0 => x.p0
  | .p1 => x.p1

def set (x : PerPlane α) (pl : Plane) (v : α) : PerPlane α :=
  match pl with
  | .p0 => { x with p0 := v }
  | .p1 => { x with p1 := v }

end PerPlane

/-- The two requests that read the array (chapter 6). -/
inductive ReadKind where
  | record (offset count : Nat)
  | openCopy
  deriving DecidableEq, Repr

inductive ReadPhase where
  | waiting | reading
  deriving DecidableEq, Repr

/-- A read in progress (R103), with the extent it reads and whether its OPEN is to be refused IN_USE at the end of
its tenure (R45), log 13. -/
structure Read where
  kind : ReadKind
  record : RecNo
  basePage : Nat
  length : Nat
  plane : Plane
  phase : ReadPhase
  inUse : Bool
  deriving DecidableEq, Repr

/-! ## The lock table (chapter 5) -/

/-- A wait entry (R83). `due`: its countdown has run out and its expiry is yet to be taken (R84), log 9. -/
structure Wait where
  port : Port
  remaining : Nat
  lease : Nat
  due : Bool
  deriving DecidableEq, Repr

/-- A lock (R83). `leaseDue`: the lease has run out and its expiry is yet to be taken (R84), log 9. -/
structure Lock where
  holder : Option Port
  lease : Nat
  leaseDue : Bool
  waits : List Wait
  deriving DecidableEq, Repr

/-- R83, column "After device reset". -/
def Lock.free : Lock := { holder := none, lease := 0, leaseDue := false, waits := [] }

/-- A lock report (R95). -/
structure LockReport where
  granted : Option RecNo
  timedOut : Option RecNo
  lost : Option RecNo
  deriving DecidableEq, Repr

def LockReport.reset : LockReport := { granted := none, timedOut := none, lost := none }

/-! ## Notice and attention unit (chapter 7) -/

/-- A notice (R115). -/
structure Notice where
  record : RecNo
  generation : Gen
  committer : Port
  deriving DecidableEq, Repr

def Flags.clear : Flags := ⟨false, false, false, false, false, false, false, false, false⟩

def Flags.full : Flags := ⟨true, true, true, true, true, true, true, true, true⟩

/-! ## Mount, device state, reset control (chapters 9 and 10) -/

/-- The mount sequencer's phase, with the slot under examination in RECORDS (R145). DESIGN CHOICE, log 23, safe: in IDLE
and LAYOUT the slot field holds no value; the manual says what it holds in RECORDS only, from slot 0 on. -/
inductive MountPhase where
  | idle
  | layout
  | records (slot : RecNo)
  deriving DecidableEq, Repr

/-- The device state (R143). -/
inductive DeviceState where
  | mounting | unformatted | layoutDamaged | ready
  deriving DecidableEq, Repr

/-- Which of the two supply sources holds the reset: they are one source as far as release goes (R161), log 10. -/
inductive SupplySource where
  | powerOn | supply
  deriving DecidableEq, Repr

/-- The reset sources in force (R157). The pin source is in force exactly while RSTN is low (R161). -/
structure Sources where
  supply : Option SupplySource
  pin : Bool
  restart : Bool
  deriving DecidableEq, Repr

def Sources.none : Sources := { supply := Option.none, pin := false, restart := false }

/-- Reset control (R157). `latest`: the source taken latest since the last release (R162), log 10. -/
structure ResetControl where
  warning : Bool
  held : Bool
  sources : Sources
  cause : ResetSource
  latest : ResetSource
  admin : Port
  restartPending : Bool
  deriving DecidableEq, Repr

/-- Right after the release of a power-on reset with ADMSEL at 00: the warning present from the taking (R158) and so
held at the release (R159, log 22), the cause recorded (R162), no source in force. The straps' levels and the warning's
presence are a DESIGN CHOICE, log 4, unsafe. -/
def ResetControl.reset : ResetControl :=
  { warning := true, held := true, sources := Sources.none, cause := .powerOn, latest := .powerOn, admin := .a,
    restartPending := false }

/-! ## The machine -/

/-- The whole part, and the commands that wait for it, the first at the front. `clearLow` and `csLow` are the levels of
the ports' clear and chip-select inputs (R163, R166). -/
structure State where
  pending : List Instr
  array : Mem
  ports : PerPort PortIf
  clearLow : PortSet
  csLow : PortSet
  sessions : PerPort Session
  dir : Directory
  queue : List Entry
  engine : Engine
  results : PerPort (Option CommitResult)
  arbiters : PerPlane Arbiter
  reads : PerPort (Option Read)
  locks : Table 128 Lock
  reports : PerPort LockReport
  notices : PerPort (List Notice)
  flags : PerPort Flags
  masks : PerPort Flags
  mount : MountPhase
  device : DeviceState
  rc : ResetControl
  deriving DecidableEq, Repr

/-- The part right after the release of a power-on reset (R142): every volatile field at the value its chapter gives,
a blank array (log 3), the clear lines and chip selects high (log 4), mount about to start, no command waiting. -/
def State.reset : State :=
  { pending := []
    array := []
    ports := PerPort.all PortIf.reset
    clearLow := PortSet.empty
    csLow := PortSet.empty
    sessions := PerPort.all Session.reset
    dir := Directory.reset
    queue := []
    engine := Engine.reset
    results := PerPort.all none
    arbiters := ⟨Arbiter.reset, Arbiter.reset⟩
    reads := PerPort.all none
    locks := Table.fill 128 Lock.free
    reports := PerPort.all LockReport.reset
    notices := PerPort.all []
    flags := PerPort.all Flags.clear
    masks := PerPort.all Flags.full
    mount := .idle
    device := .mounting
    rc := ResetControl.reset }

/-- Why the machine stops with a fault. -/
inductive Fault where
  /-- Raised by the end of a read's tenure, of a page step or of mount's reading of a slot, where the extent or page it
  works on passes page 2047 of its plane: no such page exists (R18). No reachable state raises it, since DEFINE and
  mount admit only extents that end at page 2047 at most (R24, R30). Safe (log 8). -/
  | pageOutsideArray
  deriving DecidableEq, Repr

/-- Why a command is refused a meaning. -/
inductive Refusal where
  /-- Raised by an arm of the dispatcher whose command has no meaning yet. No arm is left so. Safe. -/
  | notModelled (mnemonic : String)
  deriving DecidableEq, Repr

end Sys2Proof.Machine
end

