-- ==== Sys2Proof/Machine/Ops.lean ====
section
/-! DEFINITION. The operations every meaning is written over: one update per home of state, bytes and generations
(R10), the array and its page steps (R18 to R22), the CRC-16 (R26), extents (R24), the walk over the four ports. -/

namespace Sys2Proof.Machine

/-! ## One update per home -/

def setPort (p : Port) (x : PortIf) (s : State) : State := { s with ports := s.ports.set p x }

def setCs (p : Port) (low : Bool) (s : State) : State := { s with csLow := s.csLow.set p low }

def setSession (p : Port) (x : Session) (s : State) : State := { s with sessions := s.sessions.set p x }

def setSlot (r : RecNo) (x : Slot) (s : State) : State :=
  { s with dir := { s.dir with slots := s.dir.slots.set r x } }

def setSlots (x : Table 128 Slot) (s : State) : State := { s with dir := { s.dir with slots := x } }

def setLayout (x : Option LayoutVersion) (s : State) : State := { s with dir := { s.dir with layout := x } }

def setQueue (x : List Entry) (s : State) : State := { s with queue := x }

def setEngine (x : Engine) (s : State) : State := { s with engine := x }

def setResult (p : Port) (x : Option CommitResult) (s : State) : State := { s with results := s.results.set p x }

def setArbiter (pl : Plane) (x : Arbiter) (s : State) : State := { s with arbiters := s.arbiters.set pl x }

def setRead (p : Port) (x : Option Read) (s : State) : State := { s with reads := s.reads.set p x }

def setLock (r : RecNo) (x : Lock) (s : State) : State := { s with locks := s.locks.set r x }

def setReport (p : Port) (x : LockReport) (s : State) : State := { s with reports := s.reports.set p x }

def setFlags (p : Port) (x : Flags) (s : State) : State := { s with flags := s.flags.set p x }

def setMask (p : Port) (x : Flags) (s : State) : State := { s with masks := s.masks.set p x }

def setMount (x : MountPhase) (s : State) : State := { s with mount := x }

def setDevice (x : DeviceState) (s : State) : State := { s with device := x }

def setRc (x : ResetControl) (s : State) : State := { s with rc := x }

def setArray (x : Mem) (s : State) : State := { s with array := x }

/-- A port's notice queue, with NOTICE_PENDING set exactly while it is not empty (R120): the one operation that
writes either. -/
def setNotices (p : Port) (x : List Notice) (s : State) : State :=
  { s with
    notices := s.notices.set p x
    flags := s.flags.set p { s.flags.get p with noticePending := !x.isEmpty } }

/-- The same effect on each of the four ports. -/
def forPorts (f : Port → State → State) (s : State) : State := f .d (f .c (f .b (f .a s)))

/-! ## Bytes and generations -/

/-- Port indices (00_scope, Conventions) and their code (13): A is 0. -/
def portIndex : Port → Nat
  | .a => 0
  | .b => 1
  | .c => 2
  | .d => 3

def portByte (p : Port) : Byte := BitVec.ofNat 8 (portIndex p)

/-- The code of none, where a port, copy or record number may be absent (13). -/
def noneByte : Byte := 0xFF

def boolByte (b : Bool) : Byte := if b then 1 else 0

def recByte (r : RecNo) : Byte := BitVec.ofNat 8 r.val

def natByte (n : Nat) : Byte := BitVec.ofNat 8 n

/-- A two-byte field, low byte first (13). -/
def genBytes (g : Gen) : List Byte := [g.setWidth 8, (g >>> 8).setWidth 8]

def genOfBytes (lo hi : Byte) : Gen := (hi.setWidth 16 <<< 8) ||| lo.setWidth 16

/-- Successor and predecessor of a generation (R10). -/
def successor (g : Gen) : Gen := if g = 65535 then 1 else g + 1

def predecessor (g : Gen) : Option Gen := if g = 0 then none else if g = 1 then some 65535 else some (g - 1)

/-- A slot's generation and current copy as the directory reports them (R3, 1.2). -/
def Content.generation : Content → Gen
  | .valid _ g => g
  | _ => 0

def Content.current : Content → Option Plane
  | .valid c _ => some c
  | _ => none

def slotOf (s : State) (r : RecNo) : Slot := s.dir.slots.get r

def lockOf (s : State) (r : RecNo) : Lock := s.locks.get r

/-- The layout generation and layout current copy (R128). -/
def layoutGeneration (s : State) : Gen :=
  match s.dir.layout with
  | some v => v.generation
  | none => 0

def layoutCurrent (s : State) : Option Plane := s.dir.layout.map LayoutVersion.current

/-- The record numbers in increasing order. -/
def allRecords : List RecNo := (List.range 128).filterMap fun n => if h : n < 128 then some ⟨n, h⟩ else none

/-! ## Extents -/

/-- n = ceil((L + 8) / 32) (R2, R24). -/
def extentPages (length : Nat) : Nat := (length + 8 + 31) / 32

/-- Two extents share a page number (R24). -/
def extentsOverlap (b1 n1 b2 n2 : Nat) : Bool := decide (b1 < b2 + n2) && decide (b2 < b1 + n1)

/-- An extent lies wholly inside a plane (R18). -/
def extentInArray (b n : Nat) : Bool := decide (b + n ≤ Config.planePages)

/-! ## The array -/

def planeIndex : Plane → Nat
  | .p0 => 0
  | .p1 => 1

/-- The address of a byte of a page (R18), log 3. -/
def pageAddress (pl : Plane) (page : Nat) : Nat := planeIndex pl * Config.planeBytes + page * Config.pageBytes

def memRead : Mem → Nat → Byte
  | [], _ => Config.blankByte
  | (k, v) :: t, a => if a = k then v else memRead t a

/-- Write one byte, keeping addresses rising and listing no blank byte. -/
def memWrite : Mem → Nat → Byte → Mem
  | [], a, v => if v = Config.blankByte then [] else [(a, v)]
  | (k, w) :: t, a, v =>
    if a < k then (if v = Config.blankByte then (k, w) :: t else (a, v) :: (k, w) :: t)
    else if a = k then (if v = Config.blankByte then t else (a, v) :: t)
    else (k, w) :: memWrite t a v

def memWriteBytes : Mem → Nat → List Byte → Mem
  | m, _, [] => m
  | m, a, v :: vs => memWriteBytes (memWrite m a v) (a + 1) vs

/-- The canonical form: addresses strictly rising and inside the array, no blank byte listed (log 3). -/
def memWf (m : Mem) : Bool :=
  decide (m.Pairwise fun x y => x.1 < y.1) &&
    m.all fun c => decide (c.1 < 2 * Config.planeBytes) && decide (c.2 ≠ Config.blankByte)

def memReadBytes (m : Mem) (a n : Nat) : List Byte := (List.range n).map fun i => memRead m (a + i)

/-- A page read: the 32 bytes as they stand (R19). -/
def readPage (m : Mem) (pl : Plane) (page : Nat) : PageBytes :=
  ⟨memReadBytes m (pageAddress pl page) 32, by simp [memReadBytes]⟩

def writePage (m : Mem) (pl : Plane) (page : Nat) (x : PageBytes) : Mem :=
  memWriteBytes m (pageAddress pl page) x.cells

/-- The pages of one copy's extent, read in increasing page order (R19). -/
def readExtent (m : Mem) (pl : Plane) (base n : Nat) : List Byte := memReadBytes m (pageAddress pl base) (32 * n)

/-- A page all 0xFF: what the blank check asks for (R20). -/
def erasedPage : PageBytes := Table.fill 32 0xFF

/-! ## Page steps (R20 to R22)

The operand of an attempt has one bit for each bit of the page: set where the attempt changed what it had to change
(log 7). The functions keep within the bounds the rules put on every attempt, whatever the operand. -/

/-- What an erase attempt leaves (R20): every bit as it was or 1; byte 0 reaches 0xFF before any other byte changes. -/
def eraseAttempt (old raised : PageBytes) : PageBytes :=
  let full := Table.zipWith (fun o m => o ||| m) old raised
  if full.get 0 = 0xFF then full else old.set 0 (full.get 0)

/-- What an erase cut off by a reset leaves (R22): nothing changed, or byte 0 at 0xFF and the others on the way. -/
def eraseCut (old raised : PageBytes) : PageBytes :=
  let full := Table.zipWith (fun o m => o ||| m) old raised
  if full.get 0 = 0xFF then full else old

/-- A program clears bits and sets none: `target` is what each byte holds once done (R21). -/
def programTarget (old new : PageBytes) : PageBytes := Table.zipWith (fun o n => o &&& n) old new

/-- What a program attempt, whole or cut off, leaves (R21, R22): each bit required to be 0 is 0 or as it was, the
others unchanged; byte 0 is begun only once bytes 1 to 31 hold what they must. -/
def programAttempt (old new cleared : PageBytes) : PageBytes :=
  let target := programTarget old new
  let full := Table.zipWith (fun o k => o &&& k) old (Table.zipWith (fun t c => t ||| ~~~c) target cleared)
  if full.cells.tail = target.cells.tail then full else full.set 0 (old.get 0)

/-! ## CRC-16 (R26) -/

def crc16Shift (r : Gen) : Gen := if r.msb then (r <<< 1) ^^^ 0x1021 else r <<< 1

def crc16Byte (r : Gen) (b : Byte) : Gen :=
  crc16Shift (crc16Shift (crc16Shift (crc16Shift
    (crc16Shift (crc16Shift (crc16Shift (crc16Shift (r ^^^ (b.setWidth 16 <<< 8)))))))))

/-- The check code of R26: polynomial 0x1021, the register starting at 0xFFFF, most significant bit first. -/
def crc16 (bytes : List Byte) : Gen := bytes.foldl crc16Byte 0xFFFF

end Sys2Proof.Machine
end

