-- ==== Sys2Proof/Machine/Images.lean ====
section
/-! DEFINITION. The stored images: what the engine writes for a record (R25 to R27) and for the layout (R28), how
mount classifies what it reads (R29, R30), and how it selects between two copies (R147, R149). -/

namespace Sys2Proof.Machine

/-- A list made up to `n` bytes with 0xFF: what images leave beyond their content (R25, R28). -/
def padBlank (n : Nat) (l : List Byte) : List Byte := l ++ List.replicate (n - l.length) 0xFF

/-- Byte `i` of what was read; the bytes a reader asks for always lie inside the extent it read. -/
def byteAt (l : List Byte) (i : Nat) : Byte := l.getD i Config.blankByte

/-- The code of a copy number: 0 in plane 0, 1 in plane 1 (R25). -/
def planeByte (pl : Plane) : Byte := BitVec.ofNat 8 (planeIndex pl)

/-! ## Record images -/

/-- Header bytes 0 to 5 of a record image (R25, R183). -/
def recordHeader (r : RecNo) (length : Nat) (copy : Plane) (g : Gen) : List Byte :=
  0x3C :: recByte r :: natByte length :: planeByte copy :: genBytes g

/-- The image of R27 as it fills the extent: header, check code, data, 0xFF to the end of the last page. -/
def recordImage (r : RecNo) (length : Nat) (copy : Plane) (g : Gen) (data : List Byte) : List Byte :=
  let body := data.take length
  let head := recordHeader r length copy g
  padBlank (32 * extentPages length) (head ++ genBytes (crc16 (head ++ body)) ++ body)

/-- Page `j` of an image. -/
def imagePage (image : List Byte) (j : Nat) : PageBytes := Table.ofList 32 Config.blankByte (image.drop (32 * j))

/-- The generation field of a record image (R25). -/
def imageGeneration (image : List Byte) : Gen := genOfBytes (byteAt image 4) (byteAt image 5)

/-- Data bytes `offset` to `offset + count - 1` of an image: data byte i follows the 8 header bytes (R25, R104). -/
def imageData (image : List Byte) (offset count : Nat) : List Byte := (image.drop (8 + offset)).take count

/-- The class of a stored copy of a record (R29). -/
inductive RecordClass where
  | noImage
  | valid (g : Gen)
  | invalid
  deriving DecidableEq, Repr

/-- R29: the class of a copy of record r in plane pl, from the pages of its extent. -/
def classifyRecord (r : RecNo) (length : Nat) (pl : Plane) (image : List Byte) : RecordClass :=
  let g := imageGeneration image
  let code := genOfBytes (byteAt image 6) (byteAt image 7)
  if (image.take 8).all (fun b => b = 0xFF) then .noImage
  else if byteAt image 0 = 0x3C ∧ byteAt image 1 = recByte r ∧ byteAt image 2 = natByte length ∧
      byteAt image 3 = planeByte pl ∧ g ≠ 0 ∧ code = crc16 (image.take 6 ++ imageData image 0 length) then .valid g
  else .invalid

/-! ## Layout images -/

/-- A port set as a byte: bit 0 for A to bit 3 for D (13). -/
def portSetByte (x : PortSet) : Byte :=
  boolByte x.a ||| (boolByte x.b <<< 1) ||| (boolByte x.c <<< 2) ||| (boolByte x.d <<< 3)

/-- A port set from its byte; none where any of bits 4 to 7 is set (R181, R183). -/
def portSetOfByte (b : Byte) : Option PortSet :=
  if b.toNat < 16 then some ⟨b.getLsbD 0, b.getLsbD 1, b.getLsbD 2, b.getLsbD 3⟩ else none

/-- A two-byte field that holds a page number, low byte first (R28). -/
def pageOfBytes (lo hi : Byte) : Nat := (genOfBytes lo hi).toNat

/-- The six bytes of a layout entry (R28, R183). -/
def layoutEntryBytes : Option LayoutEntry → List Byte
  | none => [0, 0, 0, 0, 0, 0]
  | some e =>
    (1 ||| (boolByte e.guarded <<< 1)) :: natByte e.length ::
      (genBytes (BitVec.ofNat 16 e.basePage) ++ [portSetByte e.readSet, portSetByte e.writeSet])

/-- A length and base page that a defined entry may have (R2, R24, R30). -/
def placementOk (length basePage : Nat) : Bool :=
  decide (1 ≤ length) && decide (length ≤ Config.maxLength) && decide (Config.layoutPages ≤ basePage) &&
    extentInArray basePage (extentPages length)

/-- One stored entry (R30, R183): undefined and all zero, or defined with legal fields; otherwise no entry. -/
def parseLayoutEntry (b : List Byte) : Option (Option LayoutEntry) :=
  if b = [0, 0, 0, 0, 0, 0] then some none
  else
    match b with
    | [flags, len, b0, b1, rs, ws] =>
      if flags.toNat < 4 ∧ flags.getLsbD 0 = true ∧ placementOk len.toNat (pageOfBytes b0 b1) = true then
        match portSetOfByte rs, portSetOfByte ws with
        | some r, some w =>
          some (some { length := len.toNat, basePage := pageOfBytes b0 b1, readSet := r, writeSet := w,
                       guarded := flags.getLsbD 1 })
        | _, _ => none
      else none
    | _ => none

/-- The 128 entries of 768 bytes, in record-number order (R28). -/
def parseLayoutEntries : Nat → List Byte → Option (List (Option LayoutEntry))
  | 0, _ => some []
  | n + 1, bytes =>
    match parseLayoutEntry (bytes.take 6), parseLayoutEntries n (bytes.drop 6) with
    | some e, some es => some (e :: es)
    | _, _ => none

/-- Two entries' extents share a page; an undefined entry has no extent. -/
def entriesOverlap (x y : Option LayoutEntry) : Bool :=
  match x, y with
  | some e, some f => extentsOverlap e.basePage (extentPages e.length) f.basePage (extentPages f.length)
  | _, _ => false

/-- No two defined extents overlap (R24, R30). -/
def noOverlap : List (Option LayoutEntry) → Bool
  | [] => true
  | e :: es => es.all (fun f => !entriesOverlap e f) && noOverlap es

/-- The first four header bytes of a layout image (R28). -/
def layoutHeader (g : Gen) : List Byte := 0x5A :: 0x01 :: genBytes g

/-- The 25 pages of a layout image (R28): header page, then the entries. -/
def layoutImage (g : Gen) (entries : List (Option LayoutEntry)) : List Byte :=
  let body := entries.flatMap layoutEntryBytes
  padBlank 32 (layoutHeader g ++ genBytes (crc16 (layoutHeader g ++ body))) ++ body

/-- The class of a stored layout copy (R30), with what a VALID one holds. -/
inductive LayoutClass where
  | noImage
  | valid (g : Gen) (entries : Table 128 (Option LayoutEntry))
  | invalid
  deriving DecidableEq, Repr

/-- R30, from the 800 bytes of a layout area. -/
def classifyLayout (image : List Byte) : LayoutClass :=
  let g := genOfBytes (byteAt image 2) (byteAt image 3)
  let code := genOfBytes (byteAt image 4) (byteAt image 5)
  let body := (image.drop 32).take 768
  if (image.take 6).all (fun b => b = 0xFF) then .noImage
  else if byteAt image 0 = 0x5A ∧ byteAt image 1 = 0x01 ∧ g ≠ 0 ∧ code = crc16 (image.take 4 ++ body) then
    match parseLayoutEntries 128 body with
    | some es => if noOverlap es then .valid g (Table.ofList 128 none es) else .invalid
    | none => .invalid
  else .invalid

/-! ## Selection -/

/-- Of two VALID copies, the one whose generation is the successor of the other's; else the numerically greater, copy
0 if equal (R147, R149). -/
def newerCopy (g0 g1 : Gen) : Plane :=
  if g1 = successor g0 then .p1
  else if g0 = successor g1 then .p0
  else if g0.toNat < g1.toNat then .p1 else .p0

/-- R149: the content of a slot from the classes of its two copies. -/
def selectRecord : RecordClass → RecordClass → Content
  | .valid g0, .valid g1 =>
    match newerCopy g0 g1 with
    | .p0 => .valid .p0 g0
    | .p1 => .valid .p1 g1
  | .valid g0, _ => .valid .p0 g0
  | _, .valid g1 => .valid .p1 g1
  | .noImage, .noImage => .empty
  | _, _ => .damaged

/-- What mount makes of the two layout copies (R147). -/
inductive LayoutChoice where
  | ready (v : LayoutVersion) (entries : Table 128 (Option LayoutEntry))
  | unformatted
  | damaged
  deriving DecidableEq, Repr

/-- R147. -/
def selectLayout : LayoutClass → LayoutClass → LayoutChoice
  | .valid g0 t0, .valid g1 t1 =>
    match newerCopy g0 g1 with
    | .p0 => .ready ⟨.p0, g0⟩ t0
    | .p1 => .ready ⟨.p1, g1⟩ t1
  | .valid g0 t0, _ => .ready ⟨.p0, g0⟩ t0
  | _, .valid g1 t1 => .ready ⟨.p1, g1⟩ t1
  | .noImage, .noImage => .unformatted
  | _, _ => .damaged

end Sys2Proof.Machine
end

