-- ==== Sys2Proof/Machine/Operands.lean ====
section
/-! DEFINITION. The operand forms of the requests: what each body spells (R181), none where the owner refuses RANGE for
a wrong length or a parameter outside its codes; and the codes of the fields of responses (R182). -/

namespace Sys2Proof.Machine

/-! ## Parameters (R181) -/

def recordOfByte (b : Byte) : Option RecNo := if h : b.toNat < 128 then some ⟨b.toNat, h⟩ else none

/-- record. -/
def recordBody : List Byte → Option RecNo
  | [r] => recordOfByte r
  | _ => none

/-- record, offset, count (R102). -/
def readBody : List Byte → Option (RecNo × Nat × Nat)
  | [r, o, c] => (recordOfByte r).map fun r => (r, o.toNat, c.toNat)
  | _ => none

/-- The OPEN modes (R181). -/
inductive OpenMode where
  | copy | blank
  deriving DecidableEq, Repr

def modeOfByte (b : Byte) : Option OpenMode :=
  if b = 0 then some .copy else if b = 1 then some .blank else none

/-- record, mode (R42). -/
def openBody : List Byte → Option (RecNo × OpenMode)
  | [r, m] =>
    match recordOfByte r, modeOfByte m with
    | some r, some m => some (r, m)
    | _, _ => none
  | _ => none

/-- offset, then 1 to 248 data bytes (R47). -/
def stageBody : List Byte → Option (Nat × List Byte)
  | o :: data => if 1 ≤ data.length ∧ data.length ≤ Config.maxLength then some (o.toNat, data) else none
  | [] => none

/-- 1 to 248 data bytes (R48). -/
def appendBody (data : List Byte) : Option (List Byte) :=
  if 1 ≤ data.length ∧ data.length ≤ Config.maxLength then some data else none

/-- condition (R58). -/
def commitBody : List Byte → Option Condition
  | [c] => if c = 0 then some .any else if c = 1 then some .matching else none
  | _ => none

/-- No body. -/
def emptyBody : List Byte → Option Unit
  | [] => some ()
  | _ => none

/-- record, lease 1 to 255, wait (R85). -/
def lockBody : List Byte → Option (RecNo × Nat × Nat)
  | [r, l, w] => if l = 0 then none else (recordOfByte r).map fun r => (r, l.toNat, w.toNat)
  | _ => none

/-- A flag set from its two bytes; none where any of bits 9 to 15 is set (R121, R181). -/
def flagsOfBytes (lo hi : Byte) : Option Flags :=
  if hi.toNat < 2 then
    some { commitDone := lo.getLsbD 0, lockGranted := lo.getLsbD 1, lockTimeout := lo.getLsbD 2,
           leaseLost := lo.getLsbD 3, noticePending := lo.getLsbD 4, noticeOverflow := lo.getLsbD 5,
           layoutChanged := lo.getLsbD 6, supplyWarn := lo.getLsbD 7, resetSeen := hi.getLsbD 0 }
  else none

/-- flag set (R121, R122). -/
def flagBody : List Byte → Option Flags
  | [lo, hi] => flagsOfBytes lo hi
  | _ => none

/-- A guarded value (R181). -/
def guardedOfByte (b : Byte) : Option Bool := if b = 0 then some false else if b = 1 then some true else none

/-- record, length, base page, read set, write set, guarded, as check 4 of R129 takes them: the length and base page
are judged later, by DEFINE's own checks (R131). -/
def defineBody : List Byte → Option (RecNo × LayoutEntry)
  | [r, len, b0, b1, rs, ws, g] =>
    match recordOfByte r, portSetOfByte rs, portSetOfByte ws, guardedOfByte g with
    | some r, some rs, some ws, some g =>
      some (r, { length := len.toNat, basePage := pageOfBytes b0 b1, readSet := rs, writeSet := ws, guarded := g })
    | _, _, _, _ => none
  | _ => none

/-- record, read set, write set, guarded (R133). -/
def accessBody : List Byte → Option (RecNo × PortSet × PortSet × Bool)
  | [r, rs, ws, g] =>
    match recordOfByte r, portSetOfByte rs, portSetOfByte ws, guardedOfByte g with
    | some r, some rs, some ws, some g => some (r, rs, ws, g)
    | _, _, _, _ => none
  | _ => none

/-! ## Fields of responses (R182) -/

/-- R182, the result codes. -/
def ResultCode.toByte : ResultCode → Byte
  | .ok => 0x00
  | .queued => 0x01
  | .waiting => 0x02
  | .none => 0x03
  | .noResponse => 0x04
  | .notReady => 0x10
  | .noRecord => 0x11
  | .noAccess => 0x12
  | .range => 0x13
  | .empty => 0x14
  | .damaged => 0x15
  | .state => 0x16
  | .overrun => 0x17
  | .stale => 0x18
  | .locked => 0x19
  | .notHolder => 0x1A
  | .inUse => 0x1B
  | .exists => 0x1C
  | .overlap => 0x1D
  | .power => 0x1E
  | .restarting => 0x1F
  | .notAdmin => 0x20
  | .fault => 0x21

def optPortByte : Option Port → Byte
  | some p => portByte p
  | none => noneByte

def optRecByte : Option RecNo → Byte
  | some r => recByte r
  | none => noneByte

def optPlaneByte : Option Plane → Byte
  | some pl => planeByte pl
  | none => noneByte

def contentByte : Content → Byte
  | .undefined => 0
  | .empty => 1
  | .valid _ _ => 2
  | .damaged => 3

def deviceByte : DeviceState → Byte
  | .mounting => 0
  | .unformatted => 1
  | .layoutDamaged => 2
  | .ready => 3

def causeByte : ResetSource → Byte
  | .powerOn => 0
  | .supply => 1
  | .pin => 2
  | .restart => 3

/-- IDLE 0, ERASE 1, PROGRAM 2. CHECK and DONE are instants: a report shows the engine on one side of them (R82). -/
def engineByte : EngineState → Byte
  | .idle | .check | .done => 0
  | .erase => 1
  | .program => 2

def EntryKind.toByte : EntryKind → Byte
  | .record => 0
  | .format => 1
  | .define => 2
  | .delete => 3
  | .setAccess => 4

/-- An entry's kind and record number; FORMAT has none (R73). -/
def Work.kind : Work → EntryKind
  | .record _ _ _ => .record
  | .layout .format => .format
  | .layout (.define _ _) => .define
  | .layout (.delete _) => .delete
  | .layout (.setAccess _ _ _ _) => .setAccess

def Work.record? : Work → Option RecNo
  | .record r _ _ => some r
  | .layout .format => none
  | .layout (.define r _) => some r
  | .layout (.delete r) => some r
  | .layout (.setAccess r _ _ _) => some r

/-- A flag set as its two bytes, bits 9 to 15 zero (R180, R181). -/
def flagsBytes (f : Flags) : List Byte :=
  [boolByte f.commitDone ||| (boolByte f.lockGranted <<< 1) ||| (boolByte f.lockTimeout <<< 2) |||
     (boolByte f.leaseLost <<< 3) ||| (boolByte f.noticePending <<< 4) ||| (boolByte f.noticeOverflow <<< 5) |||
     (boolByte f.layoutChanged <<< 6) ||| (boolByte f.supplyWarn <<< 7),
   boolByte f.resetSeen]

end Sys2Proof.Machine
end

