-- ==== Sys2Proof/Machine/Flags.lean ====
section
/-! DEFINITION. The event flags (R120), the attention lines (R123), the status byte (R167, R180), the notice queues
(R115 to R119). -/

namespace Sys2Proof.Machine

/-! ## Setting flags (R120). NOTICE_PENDING is written by `setNotices` alone. -/

def raiseCommitDone (p : Port) (s : State) : State := setFlags p { s.flags.get p with commitDone := true } s

def raiseLockGranted (p : Port) (s : State) : State := setFlags p { s.flags.get p with lockGranted := true } s

def raiseLockTimeout (p : Port) (s : State) : State := setFlags p { s.flags.get p with lockTimeout := true } s

def raiseLeaseLost (p : Port) (s : State) : State := setFlags p { s.flags.get p with leaseLost := true } s

def raiseNoticeOverflow (p : Port) (s : State) : State := setFlags p { s.flags.get p with noticeOverflow := true } s

def raiseLayoutChanged (p : Port) (s : State) : State := setFlags p { s.flags.get p with layoutChanged := true } s

def raiseSupplyWarn (p : Port) (s : State) : State := setFlags p { s.flags.get p with supplyWarn := true } s

def raiseResetSeen (p : Port) (s : State) : State := setFlags p { s.flags.get p with resetSeen := true } s

/-- Clear the named flags, but for NOTICE_PENDING (R121). -/
def acknowledged (f named : Flags) : Flags :=
  { commitDone := f.commitDone && !named.commitDone
    lockGranted := f.lockGranted && !named.lockGranted
    lockTimeout := f.lockTimeout && !named.lockTimeout
    leaseLost := f.leaseLost && !named.leaseLost
    noticePending := f.noticePending
    noticeOverflow := f.noticeOverflow && !named.noticeOverflow
    layoutChanged := f.layoutChanged && !named.layoutChanged
    supplyWarn := f.supplyWarn && !named.supplyWarn
    resetSeen := f.resetSeen && !named.resetSeen }

/-- What a port clear leaves of the flags (R125); NOTICE_PENDING goes with the queue. -/
def clearedFlags (f : Flags) : Flags := { Flags.clear with resetSeen := f.resetSeen }

/-- Some flag is both set and enabled. -/
def anyEnabled (f m : Flags) : Bool :=
  (f.commitDone && m.commitDone) || (f.lockGranted && m.lockGranted) || (f.lockTimeout && m.lockTimeout) ||
  (f.leaseLost && m.leaseLost) || (f.noticePending && m.noticePending) || (f.noticeOverflow && m.noticeOverflow) ||
  (f.layoutChanged && m.layoutChanged) || (f.supplyWarn && m.supplyWarn) || (f.resetSeen && m.resetSeen)

/-- A device reset is in force: some source holds it (R162). -/
def resetInForce (s : State) : Bool :=
  s.rc.sources.supply.isSome || s.rc.sources.pin || s.rc.sources.restart

/-- A port's attention line is asserted (R123). -/
def attention (s : State) (p : Port) : Bool :=
  anyEnabled (s.flags.get p) (s.masks.get p) && !resetInForce s && !s.clearLow.get p

/-! ## The status byte -/

/-- The code of the last frame outcome (R180). -/
def outcomeByte : FrameOutcome → Byte
  | .none => 0
  | .accepted => 1
  | .busy => 2
  | .frameError => 3

/-- The status byte of a port as the state stands (R167, R180). -/
def statusByte (s : State) (p : Port) : Byte :=
  (boolByte (decide (s.device = .ready)) <<< 7) ||| (boolByte (s.ports.get p).response.isSome <<< 6) |||
  (boolByte (s.ports.get p).inProgress.isSome <<< 5) ||| (outcomeByte (s.ports.get p).outcome <<< 3) |||
  (boolByte (attention s p) <<< 2) ||| (boolByte (decide (s.rc.admin = p)) <<< 1) |||
  boolByte (decide ((s.sessions.get p).state ≠ .idle))

/-! ## Notice queues -/

/-- A port's notice for a record leaves its queue, if one is there; those behind keep their order (R114, R119). -/
def dropNotice (r : RecNo) (p : Port) (s : State) : State :=
  setNotices p ((s.notices.get p).filter fun n => n.record ≠ r) s

/-- A posting as one port's queue finds it (R116). -/
def postNotice (n : Notice) (p : Port) (s : State) : State :=
  let q := s.notices.get p
  if q.any (fun m => m.record = n.record) then
    setNotices p (q.map fun m => if m.record = n.record then n else m) s
  else if q.length < Config.maxNotices then setNotices p (q ++ [n]) s
  else raiseNoticeOverflow p s

/-- The posting of a completed commit: to every watcher but the entry's port (R116). -/
def postNotices (r : RecNo) (g : Gen) (committer : Port) (s : State) : State :=
  forPorts (fun q s =>
    if (slotOf s r).watch.get q && decide (q ≠ committer) then postNotice ⟨r, g, committer⟩ q s else s) s

/-- A port leaves a record's watch set, and its notice for the record leaves its queue in the same step (R115). -/
def stopWatching (r : RecNo) (p : Port) (s : State) : State :=
  dropNotice r p (setSlot r { slotOf s r with watch := (slotOf s r).watch.set p false } s)

end Sys2Proof.Machine
end

