-- ==== Sys2Proof/Machine/Transport.lean ====
section
/-! DEFINITION. The port interface (chapter 11): when a port takes a frame, what the fall of chip select fixes, what the
port shifts out, the judgement of the frame at the rise, the acceptance of a request and the writing of its response. -/

namespace Sys2Proof.Machine

/-- A port takes frames while its clear line is high and no device reset is in force (R162, R163, R166). -/
def framesTaken (s : State) (p : Port) : Bool := !resetInForce s && !s.clearLow.get p

/-- The bits of a byte, most significant first (R166). -/
def byteBits (b : Byte) : List Bool :=
  [b.getLsbD 7, b.getLsbD 6, b.getLsbD 5, b.getLsbD 4, b.getLsbD 3, b.getLsbD 2, b.getLsbD 1, b.getLsbD 0]

/-- What the part shifts out in a frame of so many whole bytes and further bits, given what the frame type calls for:
0xFF after that (R166, R175, R176). -/
def shifted (stream : List Byte) (whole extra : Nat) : FrameOut :=
  { bytes := (stream ++ List.replicate whole 0xFF).take whole
    tail := (byteBits (stream.getD whole 0xFF)).take extra }

def shiftOut (p : Port) (x : FrameOut) (s : State) : State := setPort p { s.ports.get p with sdo := x } s

def recordOutcome (p : Port) (o : FrameOutcome) (s : State) : State := setPort p { s.ports.get p with outcome := o } s

def setReceiver (p : Port) (x : ReceiverState) (s : State) : State := setPort p { s.ports.get p with receiver := x } s

/-! ## A frame: fall, bits, rise (R166) -/

/-- What the fall of chip select fixes (R167, R175, R176). -/
def snapshot (s : State) (p : Port) : FrameIn :=
  { status := statusByte s p, slot := (s.ports.get p).response, tag := (s.ports.get p).inProgress.getD 0,
    flags := s.flags.get p, bits := 0, bytes := [] }

/-- What a FETCH frame calls for: the status byte and the copy of the response slot, with a CRC-8 of all before it
(R175). -/
def fetchStream (f : FrameIn) : List Byte :=
  let head :=
    match f.slot with
    | some r => f.status :: r.tag :: r.code.toByte :: (genBytes (BitVec.ofNat 16 r.body.length) ++ r.body)
    | none => [f.status, f.tag, ResultCode.toByte .noResponse, 0, 0]
  head ++ [crc8 head]

/-- What a POLL frame calls for: the status byte and the nine flags (R176). -/
def pollStream (f : FrameIn) : List Byte := f.status :: flagsBytes f.flags

/-- What a frame calls for, by its first byte (R166): a REQUEST frame and a frame of unknown type the status byte
alone. -/
def frameStream (f : FrameIn) (bytes : List Byte) : List Byte :=
  match bytes.head? with
  | some t => if t = 0xA2 then fetchStream f else if t = 0xA3 then pollStream f else [f.status]
  | none => [f.status]

/-- The fall of chip select: the port takes the frame, fixing what it is to show, or ignores it. A line already low
does not fall again. -/
def fallFrame (p : Port) (s : State) : State :=
  if s.csLow.get p then s
  else setCs p true (setReceiver p (if framesTaken s p then .receiving (snapshot s p) else .ignoring) s)

/-- So many bits. -/
def frameBits (bytes : List Byte) (extra : Nat) : Nat := 8 * bytes.length + extra

/-- The bits of a frame are clocked: they are counted, the bytes kept up to 257, and the port shifts out what the frame
type calls for. All the bits of a frame come in at one command (log 5). -/
def clockFrame (p : Port) (bytes : List Byte) (extra : Nat) (s : State) : State :=
  match (s.ports.get p).receiver with
  | .receiving f =>
    if f.bits = 0 ∧ frameBits bytes extra ≠ 0 then
      setPort p { s.ports.get p with
        receiver := .receiving { f with bits := frameBits bytes extra, bytes := bytes.take Config.maxFrame }
        sdo := shifted (frameStream f bytes) bytes.length extra } s
    else s
  | _ => s

/-- The frame is over: chip select high, the receiver IDLE. -/
def endFrame (p : Port) (s : State) : State := setCs p false (setReceiver p .idle s)

/-- The rise of chip select: an ignored frame, or one with no bit clocked, is over and leaves nothing; a frame that
holds the given bits is over and judged. A line that is high does not rise, and a frame that holds other bits is not
this event. -/
def riseFrame (p : Port) (bytes : List Byte) (extra : Nat) (judge : State → State) (s : State) : State :=
  if s.csLow.get p then
    match (s.ports.get p).receiver with
    | .receiving f =>
      if f.bits = 0 then endFrame p s
      else if f.bits = frameBits bytes extra ∧ f.bytes = bytes.take Config.maxFrame then judge (endFrame p s)
      else s
    | _ => endFrame p s
  else s

/-- A frame with given bits on a port, or one part of it. -/
def takeFrame (p : Port) (bytes : List Byte) (extra : Nat) (judge : State → State) (part : FramePart) (s : State) :
    State :=
  match part with
  | .whole => riseFrame p bytes extra judge (clockFrame p bytes extra (fallFrame p s))
  | .fall => fallFrame p s
  | .clock => clockFrame p bytes extra s
  | .rise => riseFrame p bytes extra judge s
  | .reply => s

/-- A port begins to take frames and finds its chip select at a level: low, it is in a frame that the port ignores to its
end (R162, R163, R166; log 17). -/
def findChipSelect (p : Port) (low : Bool) (s : State) : State :=
  setCs p low (setReceiver p (if low then .ignoring else .idle) s)

/-- The port drives SDO: chip select is low in a frame that it takes (R162, R163, R166). -/
def sdoDriven (s : State) (p : Port) : Bool :=
  match (s.ports.get p).receiver with
  | .receiving _ => true
  | _ => false

/-! ## Requests (R169 to R174) -/

/-- Check 3 of R170: the slot is emptied, the in-progress mark set with the frame's tag, the outcome ACCEPTED. -/
def acceptRequest (p : Port) (tag : Byte) (s : State) : State :=
  setPort p { s.ports.get p with response := none, due := none, inProgress := some tag, outcome := .accepted } s

/-- The response to the request in progress is decided, and due to be written (R171). Without a request in progress
there is none (R174, R179). -/
def respond (p : Port) (code : ResultCode) (body : List Byte) (s : State) : State :=
  match (s.ports.get p).inProgress with
  | some tag => setPort p { s.ports.get p with due := some ⟨tag, code, body⟩ } s
  | none => s

/-- The writing of the response: the mark is cleared and the slot filled in one step (R171, R173). Without a request in
progress, or before its response is decided, nothing is written (R174, R179). -/
def writeReply (p : Port) (s : State) : State :=
  match (s.ports.get p).inProgress, (s.ports.get p).due with
  | some _, some r => setPort p { s.ports.get p with inProgress := none, due := none, response := some r } s
  | _, _ => s

/-- A response decided and written in one step: the end of a read (R105, R44, R45, R109). -/
def answer (p : Port) (code : ResultCode) (body : List Byte) (s : State) : State := writeReply p (respond p code body s)

/-- A refusal: a result code with an empty body (R173). -/
def refuse (p : Port) (code : ResultCode) (s : State) : State := respond p code [] s

/-- The judgement of a REQUEST frame that came with a right CRC and a known code (R170). A body above 252 bytes makes
it a frame error (check 1, log 16). An accepted request is taken by its owner at once (R171). -/
def judgeRequest (p : Port) (tag : Byte) (body : List Byte) (serve : State → State) (s : State) : State :=
  if Config.maxBody < body.length then recordOutcome p .frameError s
  else if (s.ports.get p).inProgress.isSome then recordOutcome p .busy s
  else serve (acceptRequest p tag s)

/-- A request's frame, or one part of it. Taken whole, a request that was accepted has its response written at once
(log 5); its writing alone is the last part. -/
def takeRequest (c : RequestCode) (p : Port) (tag : Byte) (body : List Byte) (part : FramePart) (serve : State → State)
    (s : State) : State :=
  let t := takeFrame p (requestFrameBytes c tag body) 0 (judgeRequest p tag body serve) part s
  match part with
  | .whole => if (s.ports.get p).inProgress.isSome then t else writeReply p t
  | .reply => if (s.ports.get p).inProgress = some tag then writeReply p t else t
  | .fall | .clock | .rise => t

/-- Refused NOT_READY outside READY (R144). -/
def whenReady (p : Port) (serve : State → State) (s : State) : State :=
  if s.device = .ready then serve s else refuse p .notReady s

/-- Refused RANGE where the body spells no parameters (R181). -/
def withBody {α : Type} (p : Port) (operand : Option α) (serve : α → State → State) (s : State) : State :=
  match operand with
  | some x => serve x s
  | none => refuse p .range s

/-- Refused NO_RECORD where the record is not defined. -/
def withRecord (p : Port) (r : RecNo) (serve : LayoutEntry → State → State) (s : State) : State :=
  match (slotOf s r).entry with
  | some e => serve e s
  | none => refuse p .noRecord s

/-- Refused with a code where a condition holds. -/
def refuseIf (bad : Bool) (p : Port) (code : ResultCode) (serve : State → State) (s : State) : State :=
  if bad then refuse p code s else serve s

end Sys2Proof.Machine
end

