-- ==== Sys2Proof/Machine/Planes.lean ====
section
/-! DEFINITION. The plane arbiters (2.7): joining, the grant at the end of a tenure, the move of waiting reads at a
commit completion, their withdrawal. -/

namespace Sys2Proof.Machine

def arbiterOf (s : State) (pl : Plane) : Arbiter := s.arbiters.get pl

/-- The port after a port in rotation order (00_scope, Conventions). -/
def nextPort : Port → Port
  | .a => .b
  | .b => .c
  | .c => .d
  | .d => .a

/-- The first member of a set after a port, in rotation order, the port itself last (R34). -/
def firstAfter (p : Port) (x : PortSet) : Option Port :=
  let p1 := nextPort p
  let p2 := nextPort p1
  let p3 := nextPort p2
  if x.get p1 then some p1 else if x.get p2 then some p2 else if x.get p3 then some p3
  else if x.get p then some p else none

/-- A plane is granted to a port's read: the pointer names the port, the read leaves the waiting reads and is READING
(R34, R104). -/
def grantRead (pl : Plane) (p : Port) (s : State) : State :=
  let a := arbiterOf s pl
  let s := setArbiter pl { a with holder := .read p, pointer := p, waiting := a.waiting.set p false } s
  setRead p ((s.reads.get p).map fun rd => { rd with phase := .reading }) s

/-- The end of a tenure of a plane: a read by rotation, else the engine, else no one (R34). -/
def endTenure (pl : Plane) (s : State) : State :=
  let a := arbiterOf s pl
  match firstAfter a.pointer a.waiting with
  | some p => grantRead pl p s
  | none =>
    if a.engineWaiting then setArbiter pl { a with holder := .engine, engineWaiting := false } s
    else setArbiter pl { a with holder := .none } s

/-- A read arrives at a plane: granted at once where the plane is free, else added to the waiting reads (R33). -/
def joinRead (pl : Plane) (p : Port) (s : State) : State :=
  let a := arbiterOf s pl
  if a.holder = .none then grantRead pl p s else setArbiter pl { a with waiting := a.waiting.set p true } s

/-- The engine asks for a plane (R33). -/
def joinEngine (pl : Plane) (s : State) : State :=
  let a := arbiterOf s pl
  if a.holder = .none then setArbiter pl { a with holder := .engine } s
  else setArbiter pl { a with engineWaiting := true } s

/-- A port's read leaves the waiting reads of its plane and ends (R37). The pointer does not change (R109). -/
def withdrawRead (p : Port) (s : State) : State :=
  match s.reads.get p with
  | some rd =>
    let a := arbiterOf s rd.plane
    setRead p none (setArbiter rd.plane { a with waiting := a.waiting.set p false } s)
  | none => s

/-- A port's read waits at a plane for a record. -/
def waitsFor (s : State) (r : RecNo) (p : Port) : Bool :=
  match s.reads.get p with
  | some rd => decide (rd.record = r) && decide (rd.phase = .waiting)
  | none => false

/-- A port's waiting read of a record goes over to the waiting reads of plane `c` (R36). -/
def moveRead (r : RecNo) (c : Plane) (p : Port) (s : State) : State :=
  match s.reads.get p with
  | some rd =>
    if rd.record = r ∧ rd.phase = .waiting ∧ rd.plane ≠ c then
      let a := arbiterOf s rd.plane
      let s := setArbiter rd.plane { a with waiting := a.waiting.set p false } s
      let b := arbiterOf s c
      let s := setArbiter c { b with waiting := b.waiting.set p true } s
      setRead p (some { rd with plane := c }) s
    else s
  | none => s

/-- The completion of a commit of r moves its current copy to plane `c`: every read of r waiting at the other plane
moves; where plane `c` is free, the rotation grants it to one of them (R36). -/
def moveReads (r : RecNo) (c : Plane) (s : State) : State :=
  let s := forPorts (moveRead r c) s
  let b := arbiterOf s c
  if b.holder = .none ∧ b.waiting.isEmpty = false then endTenure c s else s

/-- A port's OPEN in COPY mode of a record whose DELETE is accepted: waiting, it leaves the arbiter and is refused
IN_USE; holding its tenure, it is to be refused at the tenure's end (R37, R45). -/
def refuseOpen (r : RecNo) (p : Port) (s : State) : State :=
  match s.reads.get p with
  | some rd =>
    if rd.record = r ∧ rd.kind = .openCopy then
      match rd.phase with
      | .waiting => answer p .inUse [] (withdrawRead p s)
      | .reading => setRead p (some { rd with inUse := true }) s
    else s
  | none => s

/-- A waiting read of a record whose DELETE completes OK: READ RECORD is refused NO_RECORD (R37, R109). No OPEN of
the record waits then; one that did would be refused IN_USE as at the acceptance (log 19). -/
def refuseDeleted (r : RecNo) (p : Port) (s : State) : State :=
  match s.reads.get p with
  | some rd =>
    if rd.record = r ∧ rd.phase = .waiting then
      answer p (if rd.kind = .openCopy then .inUse else .noRecord) [] (withdrawRead p s)
    else s
  | none => s

/-- The port clear of a reading port: a waiting read is withdrawn; a read that holds its plane goes on as a discarded
one to the end of its tenure (R110). -/
def clearRead (p : Port) (s : State) : State :=
  match s.reads.get p with
  | some rd =>
    match rd.phase with
    | .waiting => withdrawRead p s
    | .reading =>
      setRead p none
        (setArbiter rd.plane { arbiterOf s rd.plane with holder := .discarded p (decide (rd.kind = .openCopy)) } s)
  | none => s

end Sys2Proof.Machine
end

