-- ==== Sys2Proof/Machine/Records.lean ====
section
/-! DEFINITION. QUERY RECORD (R16), READ RECORD (R102) and the end of its tenure (R105). -/

namespace Sys2Proof.Machine

/-- A wait entry as QUERY RECORD shows it: port and wait remaining (R16). -/
def waitBytes (w : Wait) : List Byte := [portByte w.port, natByte w.remaining]

/-- The body of QUERY RECORD, OK, for an asking port (R16, R182). -/
def recordReport (p : Port) (r : RecNo) (s : State) : List Byte :=
  let x := slotOf s r
  let l := lockOf s r
  let len := (x.entry.map LayoutEntry.length).getD 0
  [recByte r, boolByte x.entry.isSome, natByte len] ++
  genBytes (BitVec.ofNat 16 ((x.entry.map LayoutEntry.basePage).getD 0)) ++
  [portSetByte ((x.entry.map LayoutEntry.readSet).getD PortSet.empty),
   portSetByte ((x.entry.map LayoutEntry.writeSet).getD PortSet.empty),
   boolByte ((x.entry.map LayoutEntry.guarded).getD false),
   natByte (if x.entry.isSome then extentPages len else 0),
   contentByte x.content, optPlaneByte x.content.current] ++
  genBytes x.content.generation ++
  [portSetByte x.watch, boolByte (x.watch.get p), boolByte x.deletePending, optPortByte l.holder, natByte l.lease,
   natByte l.waits.length] ++
  l.waits.flatMap waitBytes

/-- QUERY RECORD (R16). -/
def serveQueryRecord (p : Port) (body : List Byte) (s : State) : State :=
  whenReady p (withBody p (recordBody body) fun r s => respond p .ok (recordReport p r s) s) s

def execQueryRecord (p : Port) (tag : Byte) (body : List Byte) (s : State) (part : FramePart := .whole) :
    Host.Outcome State Fault Refusal :=
  .next (takeRequest .queryRecord p tag body part (serveQueryRecord p body) s)

/-- A request that passed its checks becomes the port's read in progress and joins the arbiter of the current copy's
plane (R33, R103). -/
def startRead (p : Port) (kind : ReadKind) (r : RecNo) (e : LayoutEntry) (c : Plane) (s : State) : State :=
  joinRead c p (setRead p (some { kind := kind, record := r, basePage := e.basePage, length := e.length, plane := c,
                                  phase := .waiting, inUse := false }) s)

/-- Checks 5 on of a request that needs content: EMPTY or DAMAGED by state (R4). -/
def withContent (p : Port) (r : RecNo) (serve : Plane → State → State) (s : State) : State :=
  match (slotOf s r).content with
  | .valid c _ => serve c s
  | .empty => refuse p .empty s
  | .damaged => refuse p .damaged s
  | .undefined => refuse p .noRecord s

/-- READ RECORD's checks in the order of R102, then the read (R103). -/
def serveReadRecord (p : Port) (body : List Byte) (s : State) : State :=
  whenReady p (withBody p (readBody body) fun (r, offset, count) =>
    withRecord p r fun e =>
    refuseIf (!e.readSet.get p) p .noAccess <|
    withContent p r fun c =>
    refuseIf (decide (count = 0 ∨ e.length ≤ offset ∨ e.length < offset + count)) p .range <|
    startRead p (.record offset count) r e c) s

def execReadRecord (p : Port) (tag : Byte) (body : List Byte) (s : State) (part : FramePart := .whole) :
    Host.Outcome State Fault Refusal :=
  .next (takeRequest .readRecord p tag body part (serveReadRecord p body) s)

/-- What a read finds in the array: its extent in its plane (R19, R104). -/
def readImage (s : State) (rd : Read) : List Byte := readExtent s.array rd.plane rd.basePage (extentPages rd.length)

/-- The end of a READ RECORD tenure of a plane: the generation and the bytes go to the response slot (R105), those of
a discarded read nowhere (R110); the plane is granted on (R34). -/
def execReadTenureEnd (pl : Plane) (s : State) : Host.Outcome State Fault Refusal :=
  match (arbiterOf s pl).holder with
  | .read p =>
    match s.reads.get p with
    | some rd =>
      match rd.kind with
      | .record offset count =>
        if rd.phase = .reading ∧ rd.plane = pl then
          if extentInArray rd.basePage (extentPages rd.length) then
            let image := readImage s rd
            .next (answer p .ok (genBytes (imageGeneration image) ++ imageData image offset count)
              (endTenure pl (setRead p none s)))
          else .fault .pageOutsideArray
        else .next s
      | .openCopy => .next s
    | none => .next s
  | .discarded _ false => .next (endTenure pl s)
  | _ => .next s

end Sys2Proof.Machine
end

