-- ==== Sys2Proof/Machine/Sessions.lean ====
section
/-! DEFINITION. The session controller (chapter 3): OPEN and the end of its tenure (R42 to R45), STAGE (R47), APPEND
(R48), ABANDON (R51, R52). -/

namespace Sys2Proof.Machine

def sessionOf (s : State) (p : Port) : Session := s.sessions.get p

/-- Refused STATE unless the port's session is in the given state (R41). -/
def whenSession (p : Port) (st : SessionState) (serve : State → State) (s : State) : State :=
  if (sessionOf s p).state = st then serve s else refuse p .state s

/-- The body of OPEN, OK: length L and base generation (R182). -/
def openReport (length : Nat) (g : Gen) : List Byte := natByte length :: genBytes g

/-- The session becomes STAGING on a record, with the given bytes in front of an otherwise empty buffer (R43, R44). -/
def beginStaging (p : Port) (r : RecNo) (g : Gen) (data : List Byte) (s : State) : State :=
  setSession p { state := .staging, record := some r, baseGen := g, fill := 0, overrun := false,
                 buffer := Table.ofList 248 0 data } s

/-- OPEN in BLANK mode: taken at once (R43). -/
def openBlank (p : Port) (r : RecNo) (e : LayoutEntry) (s : State) : State :=
  let g := (slotOf s r).content.generation
  respond p .ok (openReport e.length g) (beginStaging p r g [] s)

/-- A port may open a record in a mode (R13, R42). -/
def mayOpen (e : LayoutEntry) (p : Port) (m : OpenMode) : Bool :=
  e.writeSet.get p && (decide (m = .blank) || e.readSet.get p)

/-- OPEN's checks in the order of R42; BLANK takes effect at once, COPY joins an arbiter as a read (R43, R44). -/
def serveOpenRecord (p : Port) (body : List Byte) (s : State) : State :=
  whenReady p (whenSession p .idle <| withBody p (openBody body) fun (r, m) =>
    withRecord p r fun e =>
    refuseIf (!mayOpen e p m) p .noAccess fun s =>
    refuseIf (slotOf s r).deletePending p .inUse
      (match m with
       | .blank => openBlank p r e
       | .copy => withContent p r fun c => startRead p .openCopy r e c) s) s

def execOpenRecord (p : Port) (tag : Byte) (body : List Byte) (s : State) (part : FramePart := .whole) :
    Host.Outcome State Fault Refusal :=
  .next (takeRequest .openRecord p tag body part (serveOpenRecord p body) s)

/-- The end of an OPEN COPY tenure of a plane: the image is loaded and the session STAGING (R44); refused IN_USE where
the record's DELETE was accepted meanwhile (R45); nothing for a discarded read (R110). The plane is granted on. -/
def execOpenCopyLoad (pl : Plane) (s : State) : Host.Outcome State Fault Refusal :=
  match (arbiterOf s pl).holder with
  | .read p =>
    match s.reads.get p with
    | some rd =>
      match rd.kind with
      | .openCopy =>
        if rd.phase = .reading ∧ rd.plane = pl then
          if extentInArray rd.basePage (extentPages rd.length) then
            let image := readImage s rd
            let s := endTenure pl (setRead p none s)
            .next (if rd.inUse then answer p .inUse [] s
              else answer p .ok (openReport rd.length (imageGeneration image))
                (beginStaging p rd.record (imageGeneration image) (imageData image 0 rd.length) s))
          else .fault .pageOutsideArray
        else .next s
      | .record _ _ => .next s
    | none => .next s
  | .discarded _ true => .next (endTenure pl s)
  | _ => .next s

/-- The length of the record a session stages (R40). -/
def stagedLength (s : State) (p : Port) : Nat :=
  match (sessionOf s p).record with
  | some r => ((slotOf s r).entry.map LayoutEntry.length).getD 0
  | none => 0

/-- The buffer with data stored from a position onward, as far as the data given go (R47). -/
def storeAt (b : Table 248 Byte) (offset : Nat) (data : List Byte) : Table 248 Byte :=
  Table.ofList 248 0 (b.cells.take offset ++ data ++ b.cells.drop (offset + data.length))

/-- Store data at a position of the staging buffer, up to byte L - 1; the fill pointer, the overrun mark and the answer
follow (R47, R48, R49). -/
def storeStaged (p : Port) (length offset : Nat) (data : List Byte) (s : State) : State :=
  let x := sessionOf s p
  let kept := data.take (length - offset)
  let excess := decide (length < offset + data.length)
  let fill := min (offset + data.length) length
  let s := setSession p { x with buffer := storeAt x.buffer offset kept, fill := fill, overrun := x.overrun || excess } s
  respond p (if excess then .overrun else .ok) [natByte fill, natByte kept.length] s

/-- STAGE (R47): RANGE carries the fill pointer and 0. -/
def serveStage (p : Port) (body : List Byte) (s : State) : State :=
  whenReady p (whenSession p .staging fun s =>
    match stageBody body with
    | some (offset, data) =>
      if offset < stagedLength s p then storeStaged p (stagedLength s p) offset data s
      else respond p .range [natByte (sessionOf s p).fill, 0] s
    | none => respond p .range [natByte (sessionOf s p).fill, 0] s) s

def execStage (p : Port) (tag : Byte) (body : List Byte) (s : State) (part : FramePart := .whole) :
    Host.Outcome State Fault Refusal :=
  .next (takeRequest .stage p tag body part (serveStage p body) s)

/-- APPEND (R48): STAGE at the fill pointer, which may already stand at L. -/
def serveAppend (p : Port) (body : List Byte) (s : State) : State :=
  whenReady p (whenSession p .staging <| withBody p (appendBody body) fun data s =>
    storeStaged p (stagedLength s p) (sessionOf s p).fill data s) s

def execAppend (p : Port) (tag : Byte) (body : List Byte) (s : State) (part : FramePart := .whole) :
    Host.Outcome State Fault Refusal :=
  .next (takeRequest .append p tag body part (serveAppend p body) s)

/-- A record's delete-pending mark is cleared. -/
def clearPending (r : RecNo) (s : State) : State := setSlot r { slotOf s r with deletePending := false } s

/-- What a removed or failed entry's acceptance set is undone: a DELETE's delete-pending mark (R52, R138). -/
def undoEntry (e : Entry) (s : State) : State :=
  match e.work with
  | .layout (.delete r) => clearPending r s
  | _ => s

/-- The port's entry is removed from the queue; the entries behind it keep their order (R61). -/
def removeEntry (p : Port) (s : State) : State :=
  let s' := setQueue (s.queue.filter fun e => decide (e.port ≠ p)) s
  match s.queue.find? fun e => decide (e.port = p) with
  | some e => undoEntry e s'
  | none => s'

/-- ABANDON by session state (R51, R52). -/
def serveAbandon (p : Port) (body : List Byte) (s : State) : State :=
  whenReady p (withBody p (emptyBody body) fun _ s =>
    match (sessionOf s p).state with
    | .idle => respond p .ok [] s
    | .staging => respond p .ok [] (setSession p Session.reset s)
    | .queued => respond p .ok [] (setSession p Session.reset (removeEntry p s))
    | .programming => refuse p .state s) s

def execAbandon (p : Port) (tag : Byte) (body : List Byte) (s : State) (part : FramePart := .whole) :
    Host.Outcome State Fault Refusal :=
  .next (takeRequest .abandon p tag body part (serveAbandon p body) s)

end Sys2Proof.Machine
end

