-- ==== Sys2Proof/Machine/Commit.lean ====
section
/-! DEFINITION. COMMIT (R58) and FETCH COMMIT RESULT (R74). -/

namespace Sys2Proof.Machine

/-- An entry joins the tail of the commit queue and its port's session becomes QUEUED; the response is QUEUED with an
empty body (R58, R59, R129). -/
def enqueue (p : Port) (w : Work) (s : State) : State :=
  respond p .queued []
    (setSession p { sessionOf s p with state := .queued } (setQueue (s.queue ++ [{ port := p, work := w }]) s))

/-- An accepted COMMIT carries the session's record and base generation into the queue (R58). A STAGING session always
has a record (R39); without one COMMIT would be refused STATE (log 19). -/
def acceptCommit (p : Port) (c : Condition) (s : State) : State :=
  match (sessionOf s p).record with
  | some r => enqueue p (.record r c (sessionOf s p).baseGen) s
  | none => refuse p .state s

/-- COMMIT's checks in the order of R58. -/
def serveCommit (p : Port) (body : List Byte) (s : State) : State :=
  whenReady p (whenSession p .staging <| withBody p (commitBody body) fun c s =>
    refuseIf (sessionOf s p).overrun p .overrun
      (refuseIf s.rc.warning p .power <| refuseIf s.rc.restartPending p .restarting <| acceptCommit p c) s) s

def execCommit (p : Port) (tag : Byte) (body : List Byte) (s : State) (part : FramePart := .whole) :
    Host.Outcome State Fault Refusal :=
  .next (takeRequest .commit p tag body part (serveCommit p body) s)

/-- The body of FETCH COMMIT RESULT, OK (R74, R182). -/
def resultReport (x : CommitResult) : List Byte :=
  optRecByte x.record :: x.kind.toByte :: x.result.toByte :: genBytes x.generation

/-- FETCH COMMIT RESULT: the slot's content, or NONE; the slot keeps it (R74). -/
def serveFetchCommitResult (p : Port) (body : List Byte) (s : State) : State :=
  whenReady p (withBody p (emptyBody body) fun _ s =>
    match s.results.get p with
    | some x => respond p .ok (resultReport x) s
    | none => refuse p .none s) s

def execFetchCommitResult (p : Port) (tag : Byte) (body : List Byte) (s : State) (part : FramePart := .whole) :
    Host.Outcome State Fault Refusal :=
  .next (takeRequest .fetchCommitResult p tag body part (serveFetchCommitResult p body) s)

end Sys2Proof.Machine
end

