-- ==== Sys2Proof/Machine/LockTable.lean ====
section
/-! DEFINITION. The lock table (chapter 5): LOCK (R85, R86), UNLOCK (R89), FETCH LOCK REPORT (R96), the hand-on (R88),
the timebase (R84), the expiries (R90, R91), the effects of a port clear (R97) and of a SET ACCESS (R98). -/

namespace Sys2Proof.Machine

/-! ## The lock report (R95) -/

def reportGranted (p : Port) (r : RecNo) (s : State) : State :=
  setReport p { s.reports.get p with granted := some r } s

def reportTimedOut (p : Port) (r : RecNo) (s : State) : State :=
  setReport p { s.reports.get p with timedOut := some r } s

def reportLost (p : Port) (r : RecNo) (s : State) : State :=
  setReport p { s.reports.get p with lost := some r } s

/-! ## Shared operations -/

/-- A port holds a lock with a fresh lease (R86, R88). -/
def grantedTo (p : Port) (lease : Nat) (waits : List Wait) : Lock :=
  { holder := some p, lease := lease, leaseDue := false, waits := waits }

/-- The holder is taken away and the lock handed on to the head waiter, with its report written and LOCK_GRANTED set;
with no waiter the lock is free (R88). -/
def handOn (r : RecNo) (s : State) : State :=
  match (lockOf s r).waits with
  | [] => setLock r Lock.free s
  | w :: ws => raiseLockGranted w.port (reportGranted w.port r (setLock r (grantedTo w.port w.lease ws) s))

/-- A port has a wait entry on a lock. -/
def waitsOn (l : Lock) (p : Port) : Bool := l.waits.any fun w => decide (w.port = p)

/-- A port has a wait entry on some record (R86). -/
def waitsAnywhere (s : State) (p : Port) : Bool := s.locks.cells.any fun l => waitsOn l p

/-- A port's wait entry leaves the list; those behind keep their order (R87). -/
def leaveWaits (p : Port) (l : Lock) : Lock := { l with waits := l.waits.filter fun w => decide (w.port ≠ p) }

/-! ## LOCK (R85, R86) -/

/-- LOCK as it finds the record's lock (R86). -/
def lockRecord (p : Port) (r : RecNo) (lease wait : Nat) (s : State) : State :=
  let l := lockOf s r
  match l.holder with
  | none => respond p .ok [recByte r, natByte lease, 0] (setLock r (grantedTo p lease l.waits) s)
  | some h =>
    if h = p then
      respond p .ok [recByte r, natByte lease, 1] (setLock r { l with lease := lease, leaseDue := false } s)
    else if wait = 0 then respond p .locked [portByte h] s
    else if waitsAnywhere s p then refuse p .state s
    else
      respond p .waiting [portByte h, natByte (l.waits.length + 1)]
        (setLock r { l with waits := l.waits ++ [{ port := p, remaining := wait, lease := lease, due := false }] } s)

def serveLock (p : Port) (body : List Byte) (s : State) : State :=
  whenReady p (withBody p (lockBody body) fun (r, lease, wait) =>
    withRecord p r fun e =>
    refuseIf (!e.writeSet.get p) p .noAccess fun s =>
    refuseIf (slotOf s r).deletePending p .inUse (lockRecord p r lease wait) s) s

def execLock (p : Port) (tag : Byte) (body : List Byte) (s : State) (part : FramePart := .whole) :
    Host.Outcome State Fault Refusal :=
  .next (takeRequest .lock p tag body part (serveLock p body) s)

/-! ## UNLOCK (R89) -/

/-- UNLOCK as it finds the record's lock (R89). -/
def unlockRecord (p : Port) (r : RecNo) (s : State) : State :=
  let l := lockOf s r
  if l.holder = some p then
    let s := handOn r s
    respond p .ok [0, optPortByte (lockOf s r).holder] s
  else if waitsOn l p then respond p .ok [1, noneByte] (setLock r (leaveWaits p l) s)
  else refuse p .notHolder s

def serveUnlock (p : Port) (body : List Byte) (s : State) : State :=
  whenReady p (withBody p (recordBody body) fun r => withRecord p r fun _ => unlockRecord p r) s

def execUnlock (p : Port) (tag : Byte) (body : List Byte) (s : State) (part : FramePart := .whole) :
    Host.Outcome State Fault Refusal :=
  .next (takeRequest .unlock p tag body part (serveUnlock p body) s)

/-! ## FETCH LOCK REPORT (R96) -/

def lockReportBytes (x : LockReport) : List Byte := [optRecByte x.granted, optRecByte x.timedOut, optRecByte x.lost]

def serveFetchLockReport (p : Port) (body : List Byte) (s : State) : State :=
  whenReady p (withBody p (emptyBody body) fun _ s => respond p .ok (lockReportBytes (s.reports.get p)) s) s

def execFetchLockReport (p : Port) (tag : Byte) (body : List Byte) (s : State) (part : FramePart := .whole) :
    Host.Outcome State Fault Refusal :=
  .next (takeRequest .fetchLockReport p tag body part (serveFetchLockReport p body) s)

/-! ## Countdowns (R84) -/

/-- A wait at a period end: it falls by one; from 1 it has run out, and its expiry is due (log 9). -/
def tickWait (w : Wait) : Wait :=
  if w.remaining ≤ 1 then { w with due := true } else { w with remaining := w.remaining - 1 }

/-- A lock at a period end (R84, log 9). -/
def tickLock (l : Lock) : Lock :=
  let l := { l with waits := l.waits.map tickWait }
  match l.holder with
  | none => l
  | some _ => if l.lease ≤ 1 then { l with leaseDue := true } else { l with lease := l.lease - 1 }

/-- The end of a timebase period, at every lock (R84). -/
def execTimebasePeriodEnd (s : State) : Host.Outcome State Fault Refusal :=
  .next { s with locks := s.locks.map tickLock }

/-- The expiry of a lease that has run out: the former holder's report and LEASE_LOST, then the hand-on (R90). -/
def execLeaseExpiry (r : RecNo) (s : State) : Host.Outcome State Fault Refusal :=
  .next (match (lockOf s r).holder with
    | some h => if (lockOf s r).leaseDue then handOn r (raiseLeaseLost h (reportLost h r s)) else s
    | none => s)

/-- The expiry of a wait that has run out: the entry leaves the list, with the report and LOCK_TIMEOUT (R91). -/
def execWaitExpiry (r : RecNo) (p : Port) (s : State) : Host.Outcome State Fault Refusal :=
  .next (if (lockOf s r).waits.any (fun w => decide (w.port = p) && w.due) then
    raiseLockTimeout p (reportTimedOut p r (setLock r (leaveWaits p (lockOf s r)) s))
  else s)

/-! ## Effects of other blocks' events -/

/-- A port clear at the lock table: the wait entry goes, every lock held is handed on, the report is emptied (R97). -/
def clearLocks (p : Port) (s : State) : State :=
  let s := { s with locks := s.locks.map (leaveWaits p) }
  let s := allRecords.foldl (fun s r => if (lockOf s r).holder = some p then handOn r s else s) s
  setReport p LockReport.reset s

/-- A waiter that a new write set leaves out: its report and LOCK_TIMEOUT (R98). -/
def expelWaiter (r : RecNo) (p : Port) (s : State) : State := raiseLockTimeout p (reportTimedOut p r s)

/-- A SET ACCESS completion applies its new write set to the record's lock: waiters outside it leave, oldest first;
then a holder outside it loses the lock, which is handed on (R98). -/
def applyWriteSet (r : RecNo) (writeSet : PortSet) (s : State) : State :=
  let l := lockOf s r
  let out := l.waits.filter fun w => !writeSet.get w.port
  let s := setLock r { l with waits := l.waits.filter fun w => writeSet.get w.port } s
  let s := out.foldl (fun s w => expelWaiter r w.port s) s
  match l.holder with
  | some h => if writeSet.get h then s else handOn r (raiseLeaseLost h (reportLost h r s))
  | none => s

end Sys2Proof.Machine
end

