-- ==== Sys2Proof/Machine/Layout.lean ====
section
/-! DEFINITION. The requests of the administrative port (chapter 8): FORMAT, DEFINE, DELETE, SET ACCESS (R129 to R133)
and RESTART (R140). -/

namespace Sys2Proof.Machine

/-- The asking port is the administrative port (R127). -/
def isAdmin (s : State) (p : Port) : Bool := decide (s.rc.admin = p)

/-- Some slot is defined. -/
def anyDefined (s : State) : Bool := s.dir.slots.cells.any fun x => x.entry.isSome

/-- An extent shares a page number with the extent of a defined record (R131). -/
def overlapsDefined (s : State) (e : LayoutEntry) : Bool :=
  s.dir.slots.cells.any fun x => entriesOverlap (some e) x.entry

/-- Checks 6 and 7 of R129, then acceptance with what the operation sets in the same step. -/
def acceptLayout (p : Port) (op : LayoutOp) (effect : State → State) : State → State := fun s =>
  refuseIf s.rc.warning p .power
    (refuseIf s.rc.restartPending p .restarting fun s => effect (enqueue p (.layout op) s)) s

/-- The checks of R129 in order: the administrative port, the device state, the session, the body; the rest is the
operation's own. -/
def serveLayout {α : Type} (p : Port) (admitted : Bool) (operand : Option α) (own : α → State → State)
    (s : State) : State :=
  refuseIf (!isAdmin s p) p .notAdmin
    (refuseIf (!admitted) p .notReady <| whenSession p .idle <| withBody p operand own) s

/-! ## FORMAT (R130) -/

def serveFormat (p : Port) (body : List Byte) (s : State) : State :=
  serveLayout p (decide (s.device ≠ .mounting)) (emptyBody body) (fun _ s =>
    refuseIf (decide (s.device = .ready) && anyDefined s) p .inUse (acceptLayout p .format id) s) s

def execFormat (p : Port) (tag : Byte) (body : List Byte) (s : State) (part : FramePart := .whole) :
    Host.Outcome State Fault Refusal :=
  .next (takeRequest .format p tag body part (serveFormat p body) s)

/-! ## DEFINE (R131) -/

def serveDefine (p : Port) (body : List Byte) (s : State) : State :=
  serveLayout p (decide (s.device = .ready)) (defineBody body) (fun (r, e) s =>
    refuseIf (slotOf s r).entry.isSome p .exists
      (refuseIf (!placementOk e.length e.basePage) p .range <|
       refuseIf (overlapsDefined s e) p .overlap <| acceptLayout p (.define r e) id) s) s

def execDefine (p : Port) (tag : Byte) (body : List Byte) (s : State) (part : FramePart := .whole) :
    Host.Outcome State Fault Refusal :=
  .next (takeRequest .define p tag body part (serveDefine p body) s)

/-! ## DELETE (R132) -/

/-- A port's session is in STAGING, QUEUED or PROGRAMMING on a record (R132). -/
def sessionOn (s : State) (r : RecNo) (p : Port) : Bool :=
  decide ((sessionOf s p).state ≠ .idle) && decide ((sessionOf s p).record = some r)

/-- Check 2 of R132. -/
def recordInUse (s : State) (r : RecNo) : Bool :=
  (slotOf s r).deletePending || sessionOn s r .a || sessionOn s r .b || sessionOn s r .c || sessionOn s r .d ||
  (lockOf s r).holder.isSome || !(lockOf s r).waits.isEmpty

/-- What the acceptance of a DELETE sets: the delete-pending mark (R132), and with it the end of every OPEN in COPY
mode in progress on the record (R45). -/
def markDeleted (r : RecNo) (s : State) : State :=
  forPorts (refuseOpen r) (setSlot r { slotOf s r with deletePending := true } s)

def serveDelete (p : Port) (body : List Byte) (s : State) : State :=
  serveLayout p (decide (s.device = .ready)) (recordBody body) (fun r =>
    withRecord p r fun _ s =>
    refuseIf (recordInUse s r) p .inUse (acceptLayout p (.delete r) (markDeleted r)) s) s

def execDelete (p : Port) (tag : Byte) (body : List Byte) (s : State) (part : FramePart := .whole) :
    Host.Outcome State Fault Refusal :=
  .next (takeRequest .delete p tag body part (serveDelete p body) s)

/-! ## SET ACCESS (R133) -/

def serveSetAccess (p : Port) (body : List Byte) (s : State) : State :=
  serveLayout p (decide (s.device = .ready)) (accessBody body) (fun (r, rs, ws, g) =>
    withRecord p r fun _ => acceptLayout p (.setAccess r rs ws g) id) s

def execSetAccess (p : Port) (tag : Byte) (body : List Byte) (s : State) (part : FramePart := .whole) :
    Host.Outcome State Fault Refusal :=
  .next (takeRequest .setAccess p tag body part (serveSetAccess p body) s)

/-! ## RESTART (R140) -/

/-- RESTART: the restart-pending mark is set; sent again, it changes nothing and answers the same. -/
def serveRestart (p : Port) (body : List Byte) (s : State) : State :=
  refuseIf (!isAdmin s p) p .notAdmin
    (refuseIf (decide (s.device = .mounting)) p .notReady <|
     withBody p (emptyBody body) fun _ s =>
       respond p .restarting [] (setRc { s.rc with restartPending := true } s)) s

def execRestart (p : Port) (tag : Byte) (body : List Byte) (s : State) (part : FramePart := .whole) :
    Host.Outcome State Fault Refusal :=
  .next (takeRequest .restart p tag body part (serveRestart p body) s)

end Sys2Proof.Machine
end

