-- ==== Sys2Proof/Machine/Program.lean ====
section
/-! DEFINITION. The program engine (chapter 4, 8.4): the start of an entry and its checks (R64 to R67, R134), the page
steps with their attempts (R68, R69, R135, R136), the invalidation step (R70), completion and failure (R71, R72, R137,
R138). -/

namespace Sys2Proof.Machine

/-! ## The end of an entry -/

/-- What the end hands to the entry's port, unless the entry is detached: the commit result slot, the session to IDLE,
COMMIT_DONE, in this order (R71, R72, R75). -/
def handOutEnd (e : Entry) (x : CommitResult) (s : State) : State :=
  if s.engine.detached then s
  else raiseCommitDone e.port (setSession e.port Session.reset (setResult e.port (some x) s))

/-- The engine passes through DONE to IDLE, its buffer all 0x00 (R63, R71). -/
def engineIdle (s : State) : State := setEngine Engine.reset s

/-- A RECORD entry ends without completing: start check failure or FAULT. The slot's generation is reported, 0 where
the record is not defined (R72). -/
def failRecord (e : Entry) (r : RecNo) (code : ResultCode) (s : State) : State :=
  engineIdle (handOutEnd e
    { record := some r, kind := .record, result := code, generation := (slotOf s r).content.generation } s)

/-- A LAYOUT entry ends without completing: a DELETE's mark is cleared, then the layout generation as it stands is
reported (R138). -/
def failLayout (e : Entry) (code : ResultCode) (s : State) : State :=
  let s := undoEntry e s
  engineIdle (handOutEnd e
    { record := e.work.record?, kind := e.work.kind, result := code, generation := layoutGeneration s } s)

/-- An entry ends with FAULT (R70, R138). -/
def failFault (e : Entry) (s : State) : State :=
  match e.work with
  | .record r _ _ => failRecord e r .fault s
  | .layout _ => failLayout e .fault s

/-- A RECORD entry completes OK: directory, reads that wait, result slot, session, COMMIT_DONE, notices (R71). -/
def completeRecord (e : Entry) (r : RecNo) (c : Plane) (g : Gen) (s : State) : State :=
  let s := moveReads r c (setSlot r { slotOf s r with content := .valid c g } s)
  let s := handOutEnd e { record := some r, kind := .record, result := .ok, generation := g } s
  engineIdle (postNotices r g e.port s)

/-- The effects of a layout completion on reads, watch sets, notices and locks (R98, R119, R137). -/
def setAccessEffects (r : RecNo) (readSet writeSet : PortSet) (s : State) : State :=
  applyWriteSet r writeSet
    (forPorts (fun p s =>
      if (slotOf s r).watch.get p && !readSet.get p then stopWatching r p s else s) s)

/-- The slot effect of a layout operation and its other effects (R137, R5, R7, R8). -/
def applyLayoutOp (op : LayoutOp) (s : State) : State :=
  match op with
  | .format => setDevice .ready (setSlots (Table.fill 128 Slot.undefined) s)
  | .define r e => setSlot r { entry := some e, content := .empty, watch := PortSet.empty, deletePending := false } s
  | .delete r =>
    let s := setSlot r Slot.undefined s
    forPorts (fun p s => dropNotice r p (refuseDeleted r p s)) s
  | .setAccess r rs ws g =>
    let x := slotOf s r
    setAccessEffects r rs ws
      (setSlot r { x with entry := x.entry.map fun e => { e with readSet := rs, writeSet := ws, guarded := g } } s)

/-- A LAYOUT entry completes OK: layout and directory, the other effects, result slot, session, COMMIT_DONE, then
LAYOUT_CHANGED on all four ports (R137). -/
def completeLayout (e : Entry) (op : LayoutOp) (c : Plane) (g : Gen) (s : State) : State :=
  let s := applyLayoutOp op (setLayout (some ⟨c, g⟩) s)
  let s := handOutEnd e { record := e.work.record?, kind := e.work.kind, result := .ok, generation := g } s
  engineIdle (forPorts raiseLayoutChanged s)

/-- The last page of an entry has passed its verify (R71, R137). -/
def completeEntry (e : Entry) (s : State) : State :=
  match s.engine.target with
  | some c =>
    match e.work with
    | .record r _ _ => completeRecord e r c s.engine.newGen s
    | .layout op => completeLayout e op c s.engine.newGen s
  | none => s

/-! ## Steps and pages -/

/-- The plane a FORMAT erases first: the one that is not the layout current copy, plane 0 where there is none (R136). -/
def formatFirstPlane (s : State) : Plane :=
  match layoutCurrent s with
  | some .p0 => .p1
  | _ => .p0

/-- The first page of the area an entry's image fills: the record's base page, or page 0 of the layout area. -/
def areaBase (s : State) : Nat :=
  match s.engine.entry with
  | some { work := .record _ _ _, .. } => s.engine.basePage
  | _ => 0

/-- The plane of a step (R68, R135, R136). -/
def stepPlane (s : State) (st : EngineStep) : Plane :=
  match st.phase with
  | .extentErase pl => pl
  | .formatFirst => formatFirstPlane s
  | .formatSecond => (formatFirstPlane s).other
  | .erase | .program | .invalidate => s.engine.target.getD .p0

/-- The page of a step: an erase takes the pages in order, a program takes the header page last, the invalidation the
header page (R68, R70, R135, R136). -/
def stepPage (s : State) (st : EngineStep) : Nat :=
  match st.phase with
  | .extentErase _ => s.engine.basePage + (st.k - 1)
  | .formatFirst | .formatSecond => st.k - 1
  | .erase => areaBase s + (st.k - 1)
  | .program => if st.k = st.m then areaBase s else areaBase s + st.k
  | .invalidate => areaBase s

/-- The image the entry programs, page by page (R25 to R28). -/
def entryImage (s : State) : List Byte :=
  match s.engine.buffer with
  | .image b => b.cells
  | .data b =>
    match s.engine.entry with
    | some { work := .record r _ _, .. } =>
      recordImage r s.engine.length (s.engine.target.getD .p0) s.engine.newGen b.cells
    | _ => []

/-- What a program step programs: its page of the image, the header page at the last step (R68, R135). -/
def stepContent (s : State) (st : EngineStep) : PageBytes :=
  imagePage (entryImage s) (if st.k = st.m then 0 else st.k)

/-- What the invalidation step programs: byte 0 to 0x00, the others left at 0xFF (R70). -/
def invalidationContent : PageBytes := erasedPage.set 0 0

/-- The step after one that passed; none after the header page of the image (R68, R135, R136). -/
def nextStep (st : EngineStep) : Option EngineStep :=
  if st.k < st.m ∧ st.phase ≠ .invalidate then some { st with k := st.k + 1 }
  else
    match st.phase with
    | .extentErase .p0 => some { phase := .extentErase .p1, k := 1, m := st.m }
    | .extentErase .p1 => some { phase := .erase, k := 1, m := Config.layoutPages }
    | .formatFirst => some { phase := .formatSecond, k := 1, m := Config.layoutPages }
    | .formatSecond => some { phase := .program, k := 1, m := Config.layoutPages }
    | .erase => some { phase := .program, k := 1, m := st.m }
    | .program | .invalidate => none

/-- The engine's state in a phase (R63, R70). -/
def phaseState : Phase → EngineState
  | .extentErase _ | .formatFirst | .formatSecond | .erase => .erase
  | .program | .invalidate => .program

/-- The engine asks the step's arbiter for an attempt (R33, R68, R69). -/
def askStep (st : EngineStep) (attempt : Nat) (s : State) : State :=
  joinEngine (stepPlane s st)
    (setEngine { s.engine with state := phaseState st.phase, step := some st, attempt := attempt } s)

/-! ## The start (R64 to R67, R134) -/

/-- The gate of R64. -/
def startAllowed (s : State) : Bool :=
  decide (s.engine.state = .idle) && !s.rc.warning && !s.rc.restartPending &&
  match s.queue with
  | [] => false
  | e :: _ =>
    decide (s.device = .ready) ||
      (decide (e.work = .layout .format) && (decide (s.device = .unformatted) || decide (s.device = .layoutDamaged)))

/-- R67: the first start check of a RECORD entry that fails. -/
def recordStartCheck (s : State) (p : Port) (r : RecNo) (cond : Condition) (base : Gen) : Option ResultCode :=
  match (slotOf s r).entry with
  | none => some .noRecord
  | some e =>
    if !e.writeSet.get p then some .noAccess
    else if e.guarded && decide ((lockOf s r).holder ≠ some p) then some .notHolder
    else if !e.guarded && decide ((lockOf s r).holder ≠ none) && decide ((lockOf s r).holder ≠ some p) then some .locked
    else if decide (cond = .matching) && decide (base ≠ (slotOf s r).content.generation) then some .stale
    else none

/-- R134: the first start check of a LAYOUT entry that fails. -/
def layoutStartCheck (s : State) (op : LayoutOp) : Option ResultCode :=
  match op with
  | .format => if decide (s.device = .ready) && anyDefined s then some .inUse else none
  | .define r e =>
    if (slotOf s r).entry.isSome then some .exists else if overlapsDefined s e then some .overlap else none
  | .delete r => if (slotOf s r).entry.isSome then none else some .noRecord
  | .setAccess r _ _ _ => if (slotOf s r).entry.isSome then none else some .noRecord

/-- R12: the target copy of a record commit. -/
def targetCopy : Option Plane → Plane
  | some .p0 => .p1
  | _ => .p0

/-- The layout target copy and new layout generation (R128). DEFINE, DELETE and SET ACCESS start only in READY, where
there is a current copy; without one copy 0 would be taken (log 19). -/
def layoutTarget (s : State) (op : LayoutOp) : Plane × Gen :=
  match op with
  | .format => (.p0, 1)
  | _ => (targetCopy (layoutCurrent s), successor (layoutGeneration s))

/-- The 128 entries of the layout after an operation (R134). -/
def layoutAfter (s : State) (op : LayoutOp) : Table 128 (Option LayoutEntry) :=
  let now := s.dir.slots.map Slot.entry
  match op with
  | .format => Table.fill 128 none
  | .define r e => now.set r (some e)
  | .delete r => now.set r none
  | .setAccess r rs ws g =>
    now.set r ((now.get r).map fun e => { e with readSet := rs, writeSet := ws, guarded := g })

/-- The first step of a LAYOUT entry (R135, R136). -/
def firstLayoutStep (op : LayoutOp) : EngineStep :=
  match op with
  | .format => { phase := .formatFirst, k := 1, m := Config.layoutPages }
  | .define _ e => { phase := .extentErase .p0, k := 1, m := extentPages e.length }
  | .delete _ | .setAccess _ _ _ _ => { phase := .erase, k := 1, m := Config.layoutPages }

/-- The base page and length an entry works with besides the layout area: its record's, or a DEFINE's own. -/
def layoutPlacement : LayoutOp → Nat × Nat
  | .define _ e => (e.basePage, e.length)
  | _ => (0, 0)

/-- Step 2 of R66 for a RECORD entry: the L bytes are copied to the engine buffer, and the staging buffer is emptied;
the session keeps its record and base generation (R40, R50). -/
def takeStaged (p : Port) (r : RecNo) (s : State) : State :=
  let x := sessionOf s p
  let data :=
    match (slotOf s r).entry with
    | some e => Table.ofList 248 0 (x.buffer.cells.take e.length)
    | none => emptyBuffer
  setEngine { s.engine with buffer := .data data }
    (setSession p { x with fill := 0, overrun := false, buffer := emptyBuffer } s)

/-- A RECORD entry at its start, in CHECK: ended by a failed check, or on to its first erase (R67, R68). -/
def startRecord (e : Entry) (r : RecNo) (cond : Condition) (base : Gen) (s : State) : State :=
  let s := takeStaged e.port r s
  match recordStartCheck s e.port r cond base, (slotOf s r).entry with
  | some code, _ => failRecord e r code s
  | none, none => failRecord e r .noRecord s
  | none, some le =>
    askStep { phase := .erase, k := 1, m := extentPages le.length } 1
      (setEngine { s.engine with
        target := some (targetCopy (slotOf s r).content.current)
        newGen := successor (slotOf s r).content.generation
        basePage := le.basePage
        length := le.length } s)

/-- A LAYOUT entry at its start, in CHECK: the layout image goes to the engine buffer, then the checks (R134). -/
def startLayout (e : Entry) (op : LayoutOp) (s : State) : State :=
  let t := layoutTarget s op
  let image := Table.ofList 800 Config.blankByte (layoutImage t.2 (layoutAfter s op).cells)
  let s := setEngine { s.engine with buffer := .image image } s
  match layoutStartCheck s op with
  | some code => failLayout e code s
  | none =>
    askStep (firstLayoutStep op) 1
      (setEngine { s.engine with
        target := some t.1
        newGen := t.2
        basePage := (layoutPlacement op).1
        length := (layoutPlacement op).2 } s)

/-- The start of an entry: it leaves the queue, its port's session becomes PROGRAMMING, the engine enters CHECK
(R66). -/
def startEntry (e : Entry) (s : State) : State :=
  let s := setSession e.port { sessionOf s e.port with state := .programming } s
  let s := setEngine { Engine.reset with state := .check, entry := some e } s
  match e.work with
  | .record r cond base => startRecord e r cond base s
  | .layout op => startLayout e op s

/-- The engine starts the head entry where R64 allows it; otherwise no start is taken. -/
def execEngineStart (s : State) : Host.Outcome State Fault Refusal :=
  .next (if startAllowed s then
    match s.queue with
    | e :: rest => startEntry e (setQueue rest s)
    | [] => s
  else s)

/-! ## Attempts (R69, R70) -/

/-- An attempt passed: the next step at attempt 1, or the entry completes. -/
def stepPassed (e : Entry) (st : EngineStep) (s : State) : State :=
  match nextStep st with
  | some st' => askStep st' 1 s
  | none => completeEntry e s

/-- A step failed three times: a record entry past its header erase and short of its header program first makes the
invalidation step; otherwise the entry ends with FAULT (R70, R138). -/
def stepExhausted (e : Entry) (st : EngineStep) (s : State) : State :=
  match e.work, st.phase with
  | .record _ _ _, .erase =>
    if st.k = 1 then failFault e s else askStep { phase := .invalidate, k := 1, m := st.m } 1 s
  | .record _ _ _, .program =>
    if st.k = st.m then failFault e s else askStep { phase := .invalidate, k := 1, m := st.m } 1 s
  | _, _ => failFault e s

/-- An attempt failed: the same step again at the next attempt, up to the third (R69). -/
def stepFailed (e : Entry) (st : EngineStep) (s : State) : State :=
  if s.engine.attempt < Config.maxAttempts then askStep st (s.engine.attempt + 1) s else stepExhausted e st s

/-- The end of an engine step's tenure: the page holds what the attempt left, and the plane is granted on (R34). -/
def leavePage (pl : Plane) (page : Nat) (x : PageBytes) (s : State) : State :=
  endTenure pl (setArray (writePage s.array pl page x) s)

/-- The engine holds the plane of its step in a given state and kind of phase: an attempt is under way. -/
def attemptUnderWay (s : State) (st : EngineStep) : Bool :=
  decide ((arbiterOf s (stepPlane s st)).holder = .engine) && decide (s.engine.state = phaseState st.phase)

/-- The end of an erase attempt with its blank check (R20, R69). -/
def execEraseAttemptDone (raised : PageBytes) (s : State) : Host.Outcome State Fault Refusal :=
  match s.engine.entry, s.engine.step with
  | some e, some st =>
    if attemptUnderWay s st && decide (phaseState st.phase = .erase) then
      if stepPage s st < Config.planePages then
        let x := eraseAttempt (readPage s.array (stepPlane s st) (stepPage s st)) raised
        let s' := leavePage (stepPlane s st) (stepPage s st) x s
        .next (if x = erasedPage then stepPassed e st s' else stepFailed e st s')
      else .fault .pageOutsideArray
    else .next s
  | _, _ => .next s

/-- The end of a program attempt with its verify (R21, R69). -/
def execProgramAttemptDone (cleared : PageBytes) (s : State) : Host.Outcome State Fault Refusal :=
  match s.engine.entry, s.engine.step with
  | some e, some st =>
    if attemptUnderWay s st && decide (st.phase = .program) then
      if stepPage s st < Config.planePages then
        let x := programAttempt (readPage s.array (stepPlane s st) (stepPage s st)) (stepContent s st) cleared
        let s' := leavePage (stepPlane s st) (stepPage s st) x s
        .next (if x = stepContent s st then stepPassed e st s' else stepFailed e st s')
      else .fault .pageOutsideArray
    else .next s
  | _, _ => .next s

/-- The end of the invalidation step: its verify is not used, and the entry ends with FAULT (R70). -/
def execInvalidationStep (cleared : PageBytes) (s : State) : Host.Outcome State Fault Refusal :=
  match s.engine.entry, s.engine.step with
  | some e, some st =>
    if attemptUnderWay s st && decide (st.phase = .invalidate) then
      if stepPage s st < Config.planePages then
        let x := programAttempt (readPage s.array (stepPlane s st) (stepPage s st)) invalidationContent cleared
        .next (failFault e (leavePage (stepPlane s st) (stepPage s st) x s))
      else .fault .pageOutsideArray
    else .next s
  | _, _ => .next s

end Sys2Proof.Machine
end

