-- ==== Sys2Proof/Machine/Mount.lean ====
section
/-! DEFINITION. The mount sequencer (chapter 9): start (R145, R38, R159), layout selection (R146, R147), the slots (R148
to R150), the end of mount (R151). -/

namespace Sys2Proof.Machine

/-- Mount begins after the release: the sequencer is granted both planes; a warning present now counts as raised during
mount (R38, R145, R159). -/
def execMountStart (s : State) : Host.Outcome State Fault Refusal :=
  .next (if s.device = .mounting ∧ resetInForce s = false ∧ s.mount = .idle then
    setMount .layout
      (setRc { s.rc with held := s.rc.held || s.rc.warning }
        { s with arbiters := ⟨{ s.arbiters.p0 with holder := .mount }, { s.arbiters.p1 with holder := .mount }⟩ })
  else s)

/-- The end of mount, in one step: the device state, both planes released, RESET_SEEN on all ports, SUPPLY_WARN with it
where the warning is held, which is then spent (R151, log 11). -/
def endMount (d : DeviceState) (s : State) : State :=
  let s := { s with arbiters := ⟨Arbiter.reset, Arbiter.reset⟩ }
  let s := forPorts raiseResetSeen (setMount .idle (setDevice d s))
  if s.rc.held then forPorts raiseSupplyWarn (setRc { s.rc with held := false } s) else s

/-- The first defined slot at or above a number. -/
def firstDefined (s : State) (n : Nat) : Option RecNo :=
  allRecords.find? fun r => decide (n ≤ r.val) && (slotOf s r).entry.isSome

/-- The layout copy in a plane's layout area as it stands (R146). -/
def readLayout (s : State) (pl : Plane) : List Byte := readExtent s.array pl 0 Config.layoutPages

/-- Both layout copies have been read: mount selects one and loads the persistent parts, or ends in UNFORMATTED or
LAYOUT_DAMAGED (R146, R147). With no slot defined there is none to set, and mount ends READY (R151). -/
def execMountLayoutSelected (s : State) : Host.Outcome State Fault Refusal :=
  .next (if s.mount = .layout then
    match selectLayout (classifyLayout (readLayout s .p0)) (classifyLayout (readLayout s .p1)) with
    | .unformatted => endMount .unformatted s
    | .damaged => endMount .layoutDamaged s
    | .ready v entries =>
      let s := setSlots (entries.map fun e => { Slot.undefined with entry := e }) (setLayout (some v) s)
      match firstDefined s 0 with
      | some _ => setMount (.records 0) s
      | none => endMount .ready s
  else s)

/-- A slot's content from its two stored copies (R148, R149). -/
def mountContent (s : State) (r : RecNo) (e : LayoutEntry) : Content :=
  let copy := fun pl => classifyRecord r e.length pl (readExtent s.array pl e.basePage (extentPages e.length))
  selectRecord (copy .p0) (copy .p1)

/-- The next slot to examine, or the end of mount after the last (R150, R151). -/
def mountOn (r : RecNo) (s : State) : State :=
  match firstDefined s (r.val + 1) with
  | some r' => setMount (.records r') s
  | none => endMount .ready s

/-- The next defined slot's copies have been read: mount sets its state, current copy and generation (R150). -/
def execMountSlotSet (s : State) : Host.Outcome State Fault Refusal :=
  match s.mount with
  | .records r0 =>
    match firstDefined s r0.val with
    | some r =>
      match (slotOf s r).entry with
      | some e =>
        if extentInArray e.basePage (extentPages e.length) then
          .next (mountOn r (setSlot r { slotOf s r with content := mountContent s r e } s))
        else .fault .pageOutsideArray
      | none => .next s
    | none => .next (endMount .ready s)
  | _ => .next s

end Sys2Proof.Machine
end

