-- ==== Sys2Proof/Machine/Notices.lean ====
section
/-! DEFINITION. The requests of the notice and attention unit (chapter 7): WATCH (R113), UNWATCH (R114), FETCH NOTICE
(R118), ACKNOWLEDGE (R121), SET ATTENTION MASK (R122). -/

namespace Sys2Proof.Machine

/-- The body of WATCH, OK: state, generation, already a member (R182). -/
def watchReport (s : State) (r : RecNo) (already : Bool) : List Byte :=
  contentByte (slotOf s r).content :: (genBytes (slotOf s r).content.generation ++ [boolByte already])

/-- WATCH (R113). -/
def serveWatch (p : Port) (body : List Byte) (s : State) : State :=
  whenReady p (withBody p (recordBody body) fun r =>
    withRecord p r fun e =>
    refuseIf (!e.readSet.get p) p .noAccess fun s =>
    let x := slotOf s r
    respond p .ok (watchReport s r (x.watch.get p)) (setSlot r { x with watch := x.watch.set p true } s)) s

def execWatch (p : Port) (tag : Byte) (body : List Byte) (s : State) (part : FramePart := .whole) :
    Host.Outcome State Fault Refusal :=
  .next (takeRequest .watch p tag body part (serveWatch p body) s)

/-- UNWATCH: OK for every record number, defined or not (R114). -/
def serveUnwatch (p : Port) (body : List Byte) (s : State) : State :=
  whenReady p (withBody p (recordBody body) fun r s =>
    respond p .ok
      [boolByte ((slotOf s r).watch.get p), boolByte ((s.notices.get p).any fun n => decide (n.record = r))]
      (stopWatching r p s)) s

def execUnwatch (p : Port) (tag : Byte) (body : List Byte) (s : State) (part : FramePart := .whole) :
    Host.Outcome State Fault Refusal :=
  .next (takeRequest .unwatch p tag body part (serveUnwatch p body) s)

/-- The body of FETCH NOTICE, OK (R118, R182). -/
def noticeReport (n : Notice) (left : Nat) : List Byte :=
  recByte n.record :: (genBytes n.generation ++ [portByte n.committer, natByte left])

/-- FETCH NOTICE: the head notice leaves the queue (R118). -/
def serveFetchNotice (p : Port) (body : List Byte) (s : State) : State :=
  whenReady p (withBody p (emptyBody body) fun _ s =>
    match s.notices.get p with
    | [] => refuse p .none s
    | n :: ns => respond p .ok (noticeReport n ns.length) (setNotices p ns s)) s

def execFetchNotice (p : Port) (tag : Byte) (body : List Byte) (s : State) (part : FramePart := .whole) :
    Host.Outcome State Fault Refusal :=
  .next (takeRequest .fetchNotice p tag body part (serveFetchNotice p body) s)

/-- ACKNOWLEDGE, in every device state (R121). -/
def serveAcknowledge (p : Port) (body : List Byte) (s : State) : State :=
  withBody p (flagBody body) (fun named s =>
    let f := acknowledged (s.flags.get p) named
    respond p .ok (flagsBytes f) (setFlags p f s)) s

def execAcknowledge (p : Port) (tag : Byte) (body : List Byte) (s : State) (part : FramePart := .whole) :
    Host.Outcome State Fault Refusal :=
  .next (takeRequest .acknowledge p tag body part (serveAcknowledge p body) s)

/-- SET ATTENTION MASK, in every device state (R122). -/
def serveSetAttentionMask (p : Port) (body : List Byte) (s : State) : State :=
  withBody p (flagBody body) (fun m s => respond p .ok (flagsBytes m) (setMask p m s)) s

def execSetAttentionMask (p : Port) (tag : Byte) (body : List Byte) (s : State) (part : FramePart := .whole) :
    Host.Outcome State Fault Refusal :=
  .next (takeRequest .setAttentionMask p tag body part (serveSetAttentionMask p body) s)

end Sys2Proof.Machine
end

