-- ==== Sys2Proof/Machine/PortClear.lean ====
section
/-! DEFINITION. Port clear (R163, R164) and its release. -/

namespace Sys2Proof.Machine

/-- The session under a port clear: the queued entry is removed, and in every state the session becomes IDLE with the
values of R39 (R57, R61). -/
def clearSession (p : Port) (s : State) : State :=
  setSession p Session.reset (if (sessionOf s p).state = .queued then removeEntry p s else s)

/-- The engine's entry is detached from a cleared port (R75). -/
def detachEntry (p : Port) (s : State) : State :=
  match s.engine.entry with
  | some e => if e.port = p then setEngine { s.engine with detached := true } s else s
  | none => s

/-- The port leaves the watch set of every record (R17, R125). -/
def leaveWatchSets (p : Port) (s : State) : State :=
  setSlots (s.dir.slots.map fun x => { x with watch := x.watch.set p false }) s

/-- The notice and attention unit under a port clear: the queue emptied, the flags cleared but RESET_SEEN, the mask all
enabled (R125). -/
def clearNotices (p : Port) (s : State) : State :=
  setNotices p [] (setMask p Flags.full (setFlags p (clearedFlags (s.flags.get p)) s))

/-- A port's transport state under a port clear: its reset values, what it last shifted out among them (log 6); a frame
in progress is abandoned, and ignored to its end (R163, R179). -/
def clearTransport (p : Port) (s : State) : State :=
  setPort p { PortIf.reset with receiver := if s.csLow.get p then .ignoring else .idle } s

/-- The effects of a port clear, block by block (R164). -/
def clearPort (p : Port) (s : State) : State :=
  clearNotices p (leaveWatchSets p (clearLocks p (setResult p none (detachEntry p (clearSession p
    (clearRead p (clearTransport p s)))))))

/-- The clear line of a port goes low. Outside a device reset a port clear is taken (R163); while a reset is in force
the line is low and no clear is taken (R162). A line already low does not go low again. -/
def execPortClear (p : Port) (s : State) : Host.Outcome State Fault Refusal :=
  .next (if s.clearLow.get p then s
    else
      let s' := { s with clearLow := s.clearLow.set p true }
      if resetInForce s then s' else clearPort p s')

/-- The clear line of a port goes high: the port takes frames from the next fall of its chip select; a frame that is in
progress then is ignored to its end (R163). A line already high does not rise. -/
def execPortClearRelease (p : Port) (csLow : Bool) (s : State) : Host.Outcome State Fault Refusal :=
  .next (if s.clearLow.get p then findChipSelect p csLow { s with clearLow := s.clearLow.set p false } else s)

end Sys2Proof.Machine
end

