-- ==== Sys2Proof/Machine/PortFrames.lean ====
section
/-! DEFINITION. The frames the port interface answers itself: NOP and DEVICE STATUS (R177, R178), FETCH and POLL
(R175, R176), a frame in error (R166, R170). -/

namespace Sys2Proof.Machine

/-- NOP: in READY the body is echoed (R177). -/
def serveNop (p : Port) (body : List Byte) (s : State) : State := whenReady p (respond p .ok body) s

def execNop (p : Port) (tag : Byte) (body : List Byte) (s : State) (part : FramePart := .whole) :
    Host.Outcome State Fault Refusal :=
  .next (takeRequest .nop p tag body part (serveNop p body) s)

/-- An entry as DEVICE STATUS shows it: port, kind, record (R178). -/
def entryBytes (e : Entry) : List Byte := [portByte e.port, e.work.kind.toByte, optRecByte e.work.record?]

/-- The number of defined slots (R17). -/
def definedCount (s : State) : Nat := (s.dir.slots.cells.filter fun x => x.entry.isSome).length

/-- The directory's part of the report: layout generation, layout current copy, defined records. In MOUNTING they are
0, none and 0, whatever mount has loaded so far (R156, R178). -/
def layoutReport (s : State) : Gen × Option Plane × Nat :=
  if s.device = .mounting then (0, none, 0) else (layoutGeneration s, layoutCurrent s, definedCount s)

/-- The body of DEVICE STATUS, OK (R178, R182). -/
def deviceReport (s : State) : List Byte :=
  [deviceByte s.device, causeByte s.rc.cause, boolByte s.rc.warning, boolByte s.rc.restartPending,
   portByte s.rc.admin] ++
  genBytes (layoutReport s).1 ++
  [optPlaneByte (layoutReport s).2.1, engineByte s.engine.state] ++
  (match s.engine.entry with
   | some e => entryBytes e
   | none => [noneByte, noneByte, noneByte]) ++
  [natByte (layoutReport s).2.2, natByte s.queue.length] ++
  s.queue.flatMap entryBytes

/-- DEVICE STATUS: served in every device state (R178). -/
def serveDeviceStatus (p : Port) (body : List Byte) (s : State) : State :=
  withBody p (emptyBody body) (fun _ s => respond p .ok (deviceReport s) s) s

def execDeviceStatus (p : Port) (tag : Byte) (body : List Byte) (s : State) (part : FramePart := .whole) :
    Host.Outcome State Fault Refusal :=
  .next (takeRequest .deviceStatus p tag body part (serveDeviceStatus p body) s)

/-- FETCH, with the bytes sent after its type, which are not used: shifts out the copy of the response slot and changes
nothing in the part (R175). -/
def execFetch (p : Port) (sent : List Byte) (s : State) (part : FramePart := .whole) : Host.Outcome State Fault Refusal :=
  .next (takeFrame p (0xA2 :: sent) 0 id part s)

/-- POLL, likewise: shifts out the status byte and the flags and changes nothing in the part (R176). -/
def execPoll (p : Port) (sent : List Byte) (s : State) (part : FramePart := .whole) : Host.Outcome State Fault Refusal :=
  .next (takeFrame p (0xA3 :: sent) 0 id part s)

/-- A frame in error: it has shifted out what its type calls for, and records FRAME_ERROR (R166, R170). Bytes that
make no frame error are not clocked by this command (log 16). -/
def execFrameError (p : Port) (bytes : List Byte) (extraBits : Nat) (s : State) (part : FramePart := .whole) :
    Host.Outcome State Fault Refusal :=
  .next (if frameVerdict bytes extraBits = .frameError then
    takeFrame p bytes extraBits (recordOutcome p .frameError) part s
  else takeFrame p [] 0 id part s)

end Sys2Proof.Machine
end

