-- ==== Sys2Proof/Machine/Reset.lean ====
section
/-! DEFINITION. The device resets (R142, R161), the sources that hold them and the release (R162), the restart (R141). -/

namespace Sys2Proof.Machine

/-- What a reset leaves of the page step under way: the page cut off as R22 gives; with none under way, or a page that
does not exist, the array as it stands (log 7, log 8). -/
def cutStep (cut : PageBytes) (s : State) : Mem :=
  match s.engine.step with
  | some st =>
    if attemptUnderWay s st && decide (stepPage s st < Config.planePages) then
      let old := readPage s.array (stepPlane s st) (stepPage s st)
      let new :=
        match st.phase with
        | .program => programAttempt old (stepContent s st) cut
        | .invalidate => programAttempt old invalidationContent cut
        | _ => eraseCut old cut
      writePage s.array (stepPlane s st) (stepPage s st) new
    else s.array
  | none => s.array

/-- A source comes into force beside those that hold a reset already; the two supply sources are one (R161, log 10). -/
def addSource (src : ResetSource) (x : Sources) : Sources :=
  match src with
  | .powerOn => { x with supply := some .powerOn }
  | .supply => { x with supply := some .supply }
  | .pin => { x with pin := true }
  | .restart => { x with restart := true }

/-- The taking of a device reset: every volatile state to its reset value, the array kept but for the step cut off,
the clear lines and chip selects as they stand (R142, log 4). Reset control: the warning present from a power-on or
supply reset and otherwise as it was, the held warning and restart pending clear, the cause and administrative port as
the last release left them (R157). -/
def deviceReset (src : ResetSource) (cut : PageBytes) (s : State) : State :=
  { State.reset with
    pending := s.pending
    array := cutStep cut s
    clearLow := s.clearLow
    csLow := s.csLow
    rc := { warning := s.rc.warning || decide (src = .powerOn) || decide (src = .supply)
            held := false
            sources := addSource src s.rc.sources
            cause := s.rc.cause
            latest := src
            admin := s.rc.admin
            restartPending := false } }

/-- VDD below 1.8 V (R161). -/
def execPowerOnReset (cut : PageBytes) (s : State) : Host.Outcome State Fault Refusal :=
  .next (deviceReset .powerOn cut s)

/-- VDD below 2.55 V for 20 us (R161). -/
def execSupplyReset (cut : PageBytes) (s : State) : Host.Outcome State Fault Refusal :=
  .next (deviceReset .supply cut s)

/-- RSTN goes low (R161). The pin source is in force exactly while RSTN is low, so a line already low does not go low
again (log 10). -/
def execPinReset (cut : PageBytes) (s : State) : Host.Outcome State Fault Refusal :=
  .next (if s.rc.sources.pin then s else deviceReset .pin cut s)

/-- The restart source: taken when a restart is pending and the engine is IDLE (R141), only while no other reset is in
force (R162). -/
def execRestartReset (cut : PageBytes) (s : State) : Host.Outcome State Fault Refusal :=
  .next (if s.rc.restartPending && decide (s.engine.state = .idle) && !resetInForce s
    then deviceReset .restart cut s else s)

/-- A source is in force (R157). -/
def sourceInForce (x : Sources) : ResetSource → Bool
  | .powerOn => decide (x.supply = some .powerOn)
  | .supply => decide (x.supply = some .supply)
  | .pin => x.pin
  | .restart => x.restart

/-- What remains in force when a source lets go. -/
def dropSource (x : Sources) : ResetSource → Sources
  | .powerOn | .supply => { x with supply := none }
  | .pin => { x with pin := false }
  | .restart => { x with restart := false }

/-- A source that is not the last in force lets go: the reset stays in force, its cause unchanged (R162). -/
def execSourceLetsGo (src : ResetSource) (s : State) : Host.Outcome State Fault Refusal :=
  .next (if sourceInForce s.rc.sources src && decide (dropSource s.rc.sources src ≠ Sources.none) then
    setRc { s.rc with sources := dropSource s.rc.sources src } s
  else s)

/-- The port the straps name: 00 A, 01 B, 10 C, 11 D (R127). -/
def strapPort (straps : BitVec 2) : Port :=
  match straps.toNat with
  | 0 => .a
  | 1 => .b
  | 2 => .c
  | _ => .d

/-- Exactly one source is in force. -/
def lastSource (x : Sources) : Bool :=
  (x.supply.isSome && !x.pin && !x.restart) || (x.supply.isNone && x.pin && !x.restart) ||
  (x.supply.isNone && !x.pin && x.restart)

/-- The last source in force lets go: the reset is released, the cause recorded, ADMSEL sampled (R162, R127); the
device state is MOUNTING and mount is due. A frame in progress then is ignored to its end (R162, R166). A warning
present now is held: a part released before its warning is removed reaches the end of mount with SUPPLY_WARN, whenever
the removal then comes (R159, log 22). -/
def execResetRelease (straps : BitVec 2) (csLow : PortSet) (s : State) : Host.Outcome State Fault Refusal :=
  .next (if lastSource s.rc.sources then
    forPorts (fun p => findChipSelect p (csLow.get p))
      (setRc { s.rc with sources := Sources.none, cause := s.rc.latest, admin := strapPort straps,
                         held := s.rc.held || s.rc.warning } s)
  else s)

end Sys2Proof.Machine
end

