-- ==== Sys2Proof/Machine/Supply.lean ====
section
/-! DEFINITION. The supply warning (R158 to R160). The thresholds and filters of R158 are outside the model: the two
events come when the monitor's filters end (log 18). -/

namespace Sys2Proof.Machine

/-- The warning is raised, taken only while it is absent: SUPPLY_WARN on all four ports, or the held warning during
MOUNTING, or the condition alone while a reset is in force (R158, R159). -/
def execSupplyWarningRaised (s : State) : Host.Outcome State Fault Refusal :=
  .next (if s.rc.warning then s
    else if resetInForce s then setRc { s.rc with warning := true } s
    else if s.device = .mounting then setRc { s.rc with warning := true, held := true } s
    else forPorts raiseSupplyWarn (setRc { s.rc with warning := true } s))

/-- The warning is removed, taken only while it is present: the condition becomes absent, and no flag changes (R158,
R160). The start of the head entry that may follow is ENGINE_START (log 12). -/
def execSupplyWarningRemoved (s : State) : Host.Outcome State Fault Refusal :=
  .next (if s.rc.warning then setRc { s.rc with warning := false } s else s)

end Sys2Proof.Machine
end

