-- ==== Sys2Proof/Machine/Dispatch.lean ====
section
/-! DEFINITION. The dispatcher: one arm per command, each a direct call of its meaning. -/

namespace Sys2Proof.Machine

def exec (i : Instr) (s : State) : Host.Outcome State Fault Refusal :=
  match i with
  | .nop p tag body part => Sys2Proof.Machine.execNop p tag body s part
  | .queryRecord p tag body part => Sys2Proof.Machine.execQueryRecord p tag body s part
  | .readRecord p tag body part => Sys2Proof.Machine.execReadRecord p tag body s part
  | .deviceStatus p tag body part => Sys2Proof.Machine.execDeviceStatus p tag body s part
  | .openRecord p tag body part => Sys2Proof.Machine.execOpenRecord p tag body s part
  | .stage p tag body part => Sys2Proof.Machine.execStage p tag body s part
  | .append p tag body part => Sys2Proof.Machine.execAppend p tag body s part
  | .commit p tag body part => Sys2Proof.Machine.execCommit p tag body s part
  | .abandon p tag body part => Sys2Proof.Machine.execAbandon p tag body s part
  | .fetchCommitResult p tag body part => Sys2Proof.Machine.execFetchCommitResult p tag body s part
  | .lock p tag body part => Sys2Proof.Machine.execLock p tag body s part
  | .unlock p tag body part => Sys2Proof.Machine.execUnlock p tag body s part
  | .fetchLockReport p tag body part => Sys2Proof.Machine.execFetchLockReport p tag body s part
  | .watch p tag body part => Sys2Proof.Machine.execWatch p tag body s part
  | .unwatch p tag body part => Sys2Proof.Machine.execUnwatch p tag body s part
  | .fetchNotice p tag body part => Sys2Proof.Machine.execFetchNotice p tag body s part
  | .acknowledge p tag body part => Sys2Proof.Machine.execAcknowledge p tag body s part
  | .setAttentionMask p tag body part => Sys2Proof.Machine.execSetAttentionMask p tag body s part
  | .format p tag body part => Sys2Proof.Machine.execFormat p tag body s part
  | .define p tag body part => Sys2Proof.Machine.execDefine p tag body s part
  | .delete p tag body part => Sys2Proof.Machine.execDelete p tag body s part
  | .setAccess p tag body part => Sys2Proof.Machine.execSetAccess p tag body s part
  | .restart p tag body part => Sys2Proof.Machine.execRestart p tag body s part
  | .fetch p sent part => Sys2Proof.Machine.execFetch p sent s part
  | .poll p sent part => Sys2Proof.Machine.execPoll p sent s part
  | .frameError p bytes extraBits part => Sys2Proof.Machine.execFrameError p bytes extraBits s part
  | .readTenureEnd pl => Sys2Proof.Machine.execReadTenureEnd pl s
  | .openCopyLoad pl => Sys2Proof.Machine.execOpenCopyLoad pl s
  | .engineStart => Sys2Proof.Machine.execEngineStart s
  | .eraseAttemptDone raised => Sys2Proof.Machine.execEraseAttemptDone raised s
  | .programAttemptDone cleared => Sys2Proof.Machine.execProgramAttemptDone cleared s
  | .invalidationStep cleared => Sys2Proof.Machine.execInvalidationStep cleared s
  | .timebasePeriodEnd => Sys2Proof.Machine.execTimebasePeriodEnd s
  | .leaseExpiry r => Sys2Proof.Machine.execLeaseExpiry r s
  | .waitExpiry r p => Sys2Proof.Machine.execWaitExpiry r p s
  | .supplyWarningRaised => Sys2Proof.Machine.execSupplyWarningRaised s
  | .supplyWarningRemoved => Sys2Proof.Machine.execSupplyWarningRemoved s
  | .portClear p => Sys2Proof.Machine.execPortClear p s
  | .portClearRelease p csLow => Sys2Proof.Machine.execPortClearRelease p csLow s
  | .powerOnReset cut => Sys2Proof.Machine.execPowerOnReset cut s
  | .supplyReset cut => Sys2Proof.Machine.execSupplyReset cut s
  | .pinReset cut => Sys2Proof.Machine.execPinReset cut s
  | .restartReset cut => Sys2Proof.Machine.execRestartReset cut s
  | .resetRelease straps csLow => Sys2Proof.Machine.execResetRelease straps csLow s
  | .mountStart => Sys2Proof.Machine.execMountStart s
  | .mountLayoutSelected => Sys2Proof.Machine.execMountLayoutSelected s
  | .mountSlotSet => Sys2Proof.Machine.execMountSlotSet s
  | .sourceLetsGo src => Sys2Proof.Machine.execSourceLetsGo src s

end Sys2Proof.Machine
end

