-- ==== Sys2Proof/Machine/Step.lean ====
section
/-! DEFINITION. One step: the command at the front of the queue is taken, with the rest of the queue waiting; with no
command waiting the part idles (log 2). -/

namespace Sys2Proof.Machine

/-- Take the front command; on an empty queue nothing happens (DESIGN CHOICE, log 2). -/
def step (s : State) : Host.Outcome State Fault Refusal :=
  match s.pending with
  | [] => .next s
  | c :: rest => exec c { s with pending := rest }

/-- The command a table word spells is put at the front of the queue; a word that spells none changes nothing. The
table gives no row any bits, so no word spells one. -/
def State.withFetchWord (s : State) (nbits w : Nat) : State :=
  match decodeTableWord nbits w with
  | some c => { s with pending := c :: s.pending }
  | none => s

end Sys2Proof.Machine
end

