-- ==== Sys2Proof/Safety.lean ====
section
/-! DEFINITION. What counts as a good state, in the terms the statements use: the promises the manual makes about whole
states (the array's canonical form, R4, R18, R24, R40, R59, R83, R103, R115, R120, R167); when a port can put a request; how a
request is answered. -/

namespace Sys2Proof.Machine

/-! ## Promises about whole states -/

/-- The array is in its canonical form (log 3). -/
def ArrayOk (s : State) : Prop := memWf s.array = true

/-- One port's transport state (R166, R167, R171, R179): never both a response and a request in progress; a response
that is due is that of the request in progress; the receiver is IDLE while chip select is high, and outside a reset
only then; it is RECEIVING only on a port that takes frames. -/
def PortOk (s : State) (p : Port) : Prop :=
  ((s.ports.get p).response = none ∨ (s.ports.get p).inProgress = none) ∧
  (∀ r, (s.ports.get p).due = some r → (s.ports.get p).inProgress = some r.tag) ∧
  (s.csLow.get p = false → (s.ports.get p).receiver = .idle) ∧
  (resetInForce s = false → s.csLow.get p = true → (s.ports.get p).receiver ≠ .idle) ∧
  ∀ f, (s.ports.get p).receiver = .receiving f → framesTaken s p = true

def TransportOk (s : State) : Prop := ∀ p, PortOk s p

/-- The notice queues (R115) and NOTICE_PENDING (R120). -/
def NoticesOk (s : State) : Prop :=
  ∀ p, (s.notices.get p).length ≤ 8 ∧ ((s.notices.get p).map Notice.record).Nodup ∧
    ((s.flags.get p).noticePending = true ↔ s.notices.get p ≠ [])

/-- One lock by itself (R83): without a holder it has no lease, none that has run out, and no waiter. -/
def LockOk (l : Lock) : Prop :=
  match l.holder with
  | none => l.lease = 0 ∧ l.leaseDue = false ∧ l.waits = []
  | some h => 1 ≤ l.lease ∧ l.lease ≤ 255 ∧ l.waits.length ≤ 3 ∧ (l.waits.map Wait.port).Nodup ∧
      ∀ w ∈ l.waits, w.port ≠ h ∧ 1 ≤ w.remaining ∧ w.remaining ≤ 255 ∧ 1 ≤ w.lease ∧ w.lease ≤ 255

/-- The lock table (R83): every lock, and no port on two wait lists. -/
def LocksOk (s : State) : Prop :=
  (∀ r, LockOk (lockOf s r)) ∧
  ∀ r r' p, waitsOn (lockOf s r) p = true → waitsOn (lockOf s r') p = true → r = r'

/-- The commit queue and the sessions (R39, R59, R66): no two entries of one port, an entry exactly while its port's
session is QUEUED, an attached entry in the engine exactly while its port's session is PROGRAMMING, none in an IDLE
engine (R63). -/
def QueueOk (s : State) : Prop :=
  (s.queue.map Entry.port).Nodup ∧
  (∀ p, (s.sessions.get p).state = .queued ↔ ∃ e ∈ s.queue, e.port = p) ∧
  (∀ p, (s.sessions.get p).state = .programming ↔
    ∃ e, s.engine.entry = some e ∧ s.engine.detached = false ∧ e.port = p) ∧
  (s.engine.state = .idle → s.engine.entry = none)

/-- A port with a read in progress has a request in progress whose response is not decided, and while it is an OPEN the
session is IDLE (R44, R103, R171). -/
def ReadsOk (s : State) : Prop :=
  ∀ p rd, s.reads.get p = some rd →
    (s.ports.get p).inProgress ≠ none ∧ (s.ports.get p).due = none ∧ (rd.kind = .openCopy → (s.sessions.get p).state = .idle)

/-- A port's entry, in the queue or attached in the engine, is a layout entry (R54). -/
def LayoutQueued (s : State) (p : Port) : Prop :=
  (∃ op, ⟨p, .layout op⟩ ∈ s.queue) ∨ (s.engine.detached = false ∧ ∃ op, s.engine.entry = some ⟨p, .layout op⟩)

/-- The sessions and their staging buffers (R39, R40, R54): outside STAGING and QUEUED the buffer is empty, and so is
that of a port whose entry is a layout entry; an IDLE session, and that of a port whose entry is a layout entry, has
no record. -/
def StagingOk (s : State) : Prop :=
  ∀ p,
    ((s.sessions.get p).state = .idle ∨ (s.sessions.get p).state = .programming ∨ LayoutQueued s p →
      (s.sessions.get p).buffer = emptyBuffer ∧ (s.sessions.get p).fill = 0 ∧ (s.sessions.get p).overrun = false) ∧
    ((s.sessions.get p).state = .idle ∨ LayoutQueued s p →
      (s.sessions.get p).record = none ∧ (s.sessions.get p).baseGen = 0)

/-- A slot by itself (1.2, R2, R4): a VALID record has a generation from 1, an undefined slot no watchers; a defined one a
legal length and place. -/
def SlotOk (x : Slot) : Prop :=
  (∀ c g, x.content = .valid c g → g ≠ 0) ∧
  (x.entry = none → x = Slot.undefined) ∧
  (∀ e, x.entry = some e → placementOk e.length e.basePage = true)

/-- The directory: every slot (R4), and no two defined extents overlap (R24). -/
def DirectoryOk (s : State) : Prop :=
  (∀ r, SlotOk (slotOf s r)) ∧
  ∀ r r', r ≠ r' → entriesOverlap (slotOf s r).entry (slotOf s r').entry = false

/-- No slot is defined. -/
def NoneDefined (s : State) : Prop := ∀ r, (slotOf s r).entry = none

/-- The device state, mount and the directory agree (R64, R128, R143, R145, R147): only in MOUNTING does mount run,
and in MOUNTING no entry is queued or in the engine; before a layout copy is selected, and in UNFORMATTED and
LAYOUT_DAMAGED, there is no layout and no slot is defined; in READY, and while the slots are set, there is a layout;
its generation is from 1. -/
def DeviceOk (s : State) : Prop :=
  (s.mount ≠ .idle → s.device = .mounting) ∧
  (s.device = .mounting → s.engine.entry = none ∧ s.queue = []) ∧
  (s.device = .mounting ∧ (s.mount = .idle ∨ s.mount = .layout) ∨ s.device = .unformatted ∨ s.device = .layoutDamaged →
    s.dir.layout = none ∧ NoneDefined s) ∧
  (s.device = .ready ∨ (∃ r, s.mount = .records r) → s.dir.layout ≠ none) ∧
  ∀ v, s.dir.layout = some v → v.generation ≠ 0

/-- The entry in the engine and the directory agree (R12, R24, R64, R67, R128, R134): a record entry works on its
slot's extent, on the copy that is not current, toward the successor generation; a layout entry toward the layout copy
and generation of R128; outside READY the engine has no entry but a FORMAT, and while it has a FORMAT no slot is
defined; the record of a DELETE or a SET ACCESS in the engine is defined; a DEFINE in the engine has a legal place
that overlaps no defined record, and a DEFINE in the queue a legal place. -/
def LinkOk (s : State) : Prop :=
  (∀ p r c g, s.engine.entry = some ⟨p, .record r c g⟩ →
    ∃ e, (slotOf s r).entry = some e ∧ s.engine.basePage = e.basePage ∧ s.engine.length = e.length ∧
      s.engine.target = some (targetCopy (slotOf s r).content.current) ∧
      s.engine.newGen = successor (slotOf s r).content.generation) ∧
  (∀ p op, s.engine.entry = some ⟨p, .layout op⟩ →
    s.engine.target = some (layoutTarget s op).1 ∧ s.engine.newGen = (layoutTarget s op).2) ∧
  (∀ p, s.engine.entry = some ⟨p, .layout .format⟩ → NoneDefined s) ∧
  (∀ e, s.engine.entry = some e → e.work ≠ .layout .format → s.device = .ready) ∧
  (∀ p r, s.engine.entry = some ⟨p, .layout (.delete r)⟩ ∨
    (∃ rs ws g, s.engine.entry = some ⟨p, .layout (.setAccess r rs ws g)⟩) → (slotOf s r).entry ≠ none) ∧
  (∀ p r e, s.engine.entry = some ⟨p, .layout (.define r e)⟩ →
    (slotOf s r).entry = none ∧ placementOk e.length e.basePage = true ∧ overlapsDefined s e = false ∧
      s.engine.basePage = e.basePage ∧ s.engine.length = e.length) ∧
  (∀ p r e, ⟨p, .layout (.define r e)⟩ ∈ s.queue → placementOk e.length e.basePage = true)

/-- The directory, with the device's and the engine's links to it. -/
def DirectoryInv (s : State) : Prop := DirectoryOk s ∧ DeviceOk s ∧ LinkOk s

/-- The watch sets and the notice queues (R115): a watcher is in the record's read set, and a notice in a port's queue
is for a record that the port watches. -/
def WatchOk (s : State) : Prop :=
  (∀ r p, (slotOf s r).watch.get p = true → ∃ e, (slotOf s r).entry = some e ∧ e.readSet.get p = true) ∧
  ∀ p, ∀ n ∈ s.notices.get p, (slotOf s n.record).watch.get p = true

/-- The locks and the directory (R83): the holder and the waiters of a lock are in the record's write set, and the
lock of a record that is not defined is free. -/
def RightsOk (s : State) : Prop :=
  ∀ r,
    ((slotOf s r).entry = none → lockOf s r = Lock.free) ∧
    ∀ e, (slotOf s r).entry = some e →
      (∀ h, (lockOf s r).holder = some h → e.writeSet.get h = true) ∧
      ∀ w ∈ (lockOf s r).waits, e.writeSet.get w.port = true

/-- The record that a DELETE entry deletes. -/
def deletedRecord (e : Entry) : Option RecNo :=
  match e.work with
  | .layout (.delete r) => some r
  | _ => none

/-- The records of the DELETE entries in the engine and in the queue. -/
def deletesUnderWay (s : State) : List RecNo := (s.engine.entry.toList ++ s.queue).filterMap deletedRecord

/-- Delete pending (R45, R132): the mark is set exactly for the records of the DELETE entries, one entry for each;
such a record has no session, no lock holder and no waiter, and an OPEN in COPY mode in progress on it holds its
tenure and is to be refused. -/
def PendingOk (s : State) : Prop :=
  (deletesUnderWay s).Nodup ∧
  (∀ r, (slotOf s r).deletePending = true ↔ r ∈ deletesUnderWay s) ∧
  ∀ r, (slotOf s r).deletePending = true →
    (lockOf s r).holder = none ∧ (lockOf s r).waits = [] ∧
    (∀ p, (s.sessions.get p).state ≠ .idle → (s.sessions.get p).record ≠ some r) ∧
    ∀ p rd, s.reads.get p = some rd → rd.record = r → rd.kind = .openCopy → rd.phase = .reading ∧ rd.inUse = true

/-- The engine's step is one of its entry's steps: a RECORD entry erases and programs its extent or invalidates its
header (R68, R70); a DEFINE alone erases an extent in both planes, a FORMAT alone the two layout areas in turn, every
other layout entry its target area, and each of them programs that area (R135, R136). -/
def StepOk (s : State) (e : Entry) (st : EngineStep) : Prop :=
  1 ≤ st.k ∧ st.k ≤ st.m ∧
  match e.work, st.phase with
  | .record _ _ _, .erase | .record _ _ _, .program => st.m = extentPages s.engine.length
  | .record _ _ _, .invalidate => True
  | .layout (.define _ _), .extentErase _ => st.m = extentPages s.engine.length
  | .layout .format, .formatFirst | .layout .format, .formatSecond => st.m = Config.layoutPages
  | .layout op, .erase => op ≠ .format ∧ st.m = Config.layoutPages
  | .layout _, .program => st.m = Config.layoutPages
  | _, _ => False

/-- Every extent that a read or the engine works on lies in the array, past the layout area (R18, R24), and the engine
is at a step only while it has an entry (R63). -/
def PlacesOk (s : State) : Prop :=
  (∀ p rd, s.reads.get p = some rd → extentInArray rd.basePage (extentPages rd.length) = true) ∧
  (∀ e st, s.engine.entry = some e → s.engine.step = some st → StepOk s e st) ∧
  (s.engine.entry = none → s.engine.step = none)

/-- R4: the current copy of every VALID record holds a VALID image that carries the directory's generation. -/
def ImagesOk (s : State) : Prop :=
  ∀ r e c g, (slotOf s r).entry = some e → (slotOf s r).content = .valid c g →
    classifyRecord r e.length c (readExtent s.array c e.basePage (extentPages e.length)) = .valid g

/-- While an entry programs, the pages of its earlier steps hold their part of the image (R68, R69, R135). -/
def ProgressOk (s : State) : Prop :=
  ∀ e st j, s.engine.entry = some e → s.engine.step = some st → st.phase = .program → 1 ≤ j → j < st.k →
    readPage s.array (s.engine.target.getD .p0) (areaBase s + j) = imagePage (entryImage s) j

/-- A record entry in the engine keeps its data in the engine buffer, a layout entry the image of the layout as it will be
(R63, R66, R134). -/
def BufferOk (s : State) : Prop :=
  (∀ p r c g, s.engine.entry = some ⟨p, .record r c g⟩ → ∃ b, s.engine.buffer = .data b) ∧
  ∀ p op, s.engine.entry = some ⟨p, .layout op⟩ →
    s.engine.buffer = .image (Table.ofList 800 0xFF (layoutImage s.engine.newGen (layoutAfter s op).cells))

/-- The header pages an entry works on (R20, R21, R68, R70, R135): past its erase a record entry's header page is
erased until the header is programmed, and while that is tried it holds the image's header with byte 0 not yet its
marker; past its erase the header page of a DEFINE's extent is erased, in both planes. -/
def HeaderOk (s : State) : Prop :=
  (∀ p r c g st pl, s.engine.entry = some ⟨p, .record r c g⟩ → s.engine.step = some st → s.engine.target = some pl →
    let header := readPage s.array pl s.engine.basePage
    (st.phase = .erase ∧ 2 ≤ st.k ∨ st.phase = .program ∧ st.k < st.m ∨ st.phase = .invalidate → header = erasedPage) ∧
    (st.phase = .program → st.k = st.m →
      header.get 0 ≠ 0x3C ∧
      ∀ i : Fin 32, header.get i &&& (imagePage (entryImage s) 0).get i = (imagePage (entryImage s) 0).get i)) ∧
  ∀ p r e st, s.engine.entry = some ⟨p, .layout (.define r e)⟩ → s.engine.step = some st →
    (st.phase ≠ .extentErase .p0 ∨ 2 ≤ st.k → readPage s.array .p0 e.basePage = erasedPage) ∧
    (st.phase = .erase ∨ st.phase = .program ∨ (st.phase = .extentErase .p1 ∧ 2 ≤ st.k) →
      readPage s.array .p1 e.basePage = erasedPage)

/-- What the copy in a plane would be classified as with byte 0 of its header page at `b`. -/
def classWith (s : State) (r : RecNo) (e : LayoutEntry) (pl : Plane) (b : Byte) : RecordClass :=
  classifyRecord r e.length pl (b :: (readExtent s.array pl e.basePage (extentPages e.length)).drop 1)

/-- R4's second guarantee: a copy that is not current is NO_IMAGE, INVALID or a VALID image that carries the
predecessor of a VALID record's generation, as it stands and with bits of byte 0 of its header page raised, as an
erase of it may leave it (R20). -/
def OtherCopyOk (s : State) : Prop :=
  ∀ r e pl b g, (slotOf s r).entry = some e → (slotOf s r).content.current ≠ some pl →
    b ||| memRead s.array (pageAddress pl e.basePage) = b →
    classWith s r e pl b = .valid g → ∃ c g', (slotOf s r).content = .valid c g' ∧ successor g = g'

/-- The layout current copy is a VALID layout image with the layout generation whose entries are the persistent parts
of the slots (R128). -/
def LayoutCopyOk (s : State) : Prop :=
  ∀ v, s.dir.layout = some v →
    classifyLayout (readExtent s.array v.current 0 Config.layoutPages) =
      .valid v.generation (s.dir.slots.map Slot.entry)

/-- A FORMAT has begun its second erase phase, which reaches the layout current copy (R136). -/
def FormatErases (s : State) : Prop :=
  ∃ p st, s.engine.entry = some ⟨p, .layout .format⟩ ∧ s.engine.step = some st ∧
    (st.phase = .formatSecond ∨ st.phase = .program)

/-- The front command ends the last program attempt of a layout entry with its page as it is to be: the entry
completes (R137). -/
def LayoutCompletes (s : State) : Prop :=
  ∃ cleared rest p op st c,
    s.pending = .programAttemptDone cleared :: rest ∧ s.engine.entry = some ⟨p, .layout op⟩ ∧
    s.engine.step = some st ∧ s.engine.state = .program ∧ st.phase = .program ∧ st.k = st.m ∧
    s.engine.target = some c ∧ (s.arbiters.get c).holder = .engine ∧
    programAttempt (readPage s.array c 0) (stepContent s st) cleared = stepContent s st

/-- R128: while some record is defined there is a layout, and its current copy is as `LayoutCopyOk` says. -/
def LayoutOk (s : State) : Prop := NoneDefined s ∨ s.dir.layout ≠ none ∧ LayoutCopyOk s

/-! ## Requests -/

/-- A byte spells a port set: bit 0 for A to bit 3 for D, bits 4 to 7 zero (13.2, R181). -/
def SpellsSet (x : Byte) (set : PortSet) : Prop := x.toNat < 16 ∧ ∀ q, set.get q = x.getLsbD (portIndex q)

/-- A command is a frame on a port, or a part of one. -/
def FrameOn (p : Port) (part : FramePart) (i : Instr) : Prop :=
  (∃ (c : RequestCode) (tag : Byte) (body : List Byte), i = c.command p tag body part) ∨
  (∃ sent, i = .fetch p sent part) ∨ (∃ sent, i = .poll p sent part) ∨ ∃ bytes extra, i = .frameError p bytes extra part

/-- A whole frame on a port is taken: its chip select is high and the port takes frames (R166). -/
abbrev CanFrame (s : State) (p : Port) : Prop := framesTaken s p = true ∧ s.csLow.get p = false

/-- A whole REQUEST frame on a port is ACCEPTED: the port takes it and has no request in progress (R170). -/
abbrev CanRequest (s : State) (p : Port) : Prop := CanFrame s p ∧ (s.ports.get p).inProgress = none

/-- The same in READY (R144). -/
abbrev CanServe (s : State) (p : Port) : Prop := CanRequest s p ∧ s.device = .ready

/-- What a port shifts out while a REQUEST frame comes in: the status byte, then 0xFF (R167, R169). -/
def requestOut (s : State) (p : Port) (body : List Byte) : FrameOut :=
  { bytes := statusByte s p :: List.replicate (4 + body.length) 0xFF, tail := [] }

/-- The state after a whole request that changed nothing but its port's transport state: accepted and answered with a code
and a body, nothing in progress (R170, R171, R173). -/
def answered (s : State) (p : Port) (tag : Byte) (body : List Byte) (code : ResultCode) (report : List Byte) : State :=
  { s with ports := s.ports.set p { receiver := .idle, outcome := .accepted, inProgress := none, due := none,
                                    response := some ⟨tag, code, report⟩, sdo := requestOut s p body } }

/-- The state after a whole request that was accepted and is in progress: its response not decided (R103, R171). -/
def awaiting (s : State) (p : Port) (tag : Byte) (body : List Byte) : State :=
  { s with ports := s.ports.set p { receiver := .idle, outcome := .accepted, inProgress := some tag, due := none,
                                    response := none, sdo := requestOut s p body } }

/-- A port's transport state once the response to its request in progress is written (R171, R173). -/
def withResponse (s : State) (p : Port) (tag : Byte) (code : ResultCode) (report : List Byte) : PerPort PortIf :=
  s.ports.set p { s.ports.get p with inProgress := none, due := none, response := some ⟨tag, code, report⟩ }

end Sys2Proof.Machine
end

