-- ==== Sys2Proof/Certificates/Slice0/Obligations.lean ====
section
/-! DEFINITION. The statements for the provers. A request's statement gives the whole next state: `answered s p tag body
code report` is `s` with nothing but the port's transport state changed, and every further change is written on top of
it. An event's statement gives the whole next state too, or names the homes that may change and says how. -/

open Sys2Proof Sys2Proof.Machine

/-! ## The step and the frames (chapter 11) -/

/-- Step takes the command at the front of the queue, and exec runs on the state whose queue is the rest; with no command
waiting the part idles (the model's choice, log 2). -/
def Obligations.StepTakesTheFrontCommand : Prop :=
  (∀ (c : Instr) (rest : List Instr) (s : State),
    step { s with pending := c :: rest } = exec c { s with pending := rest }) ∧
  ∀ s : State, s.pending = [] → step s = .next s

/-- Every command is taken: it answers a next state that leaves the waiting commands alone, or it works on a page outside
the array. None is refused. -/
def Obligations.EveryCommandIsTaken : Prop :=
  ∀ (c : Instr) (s : State),
    (∃ t, exec c s = .next t ∧ t.pending = s.pending) ∨ exec c s = .fault .pageOutsideArray

/-- A frame whose chip select falls while a device reset is in force or the port's clear line is low is ignored; so is
one whose chip select was low at the release or when the line went high. Ignored, its bits go nowhere, and at its
rise, bits clocked or not, the receiver is IDLE again and nothing else has changed. A line that is low does not fall,
nor one that is high rise (R162, R163, R166). -/
def Obligations.IgnoredFrames : Prop :=
  ∀ (s : State) (p : Port) (part : FramePart) (i : Instr), FrameOn p part i →
    (part = .fall → s.csLow.get p = false → framesTaken s p = false →
      exec i s = .next { s with
        csLow := s.csLow.set p true
        ports := s.ports.set p { s.ports.get p with receiver := .ignoring } }) ∧
    (part = .fall → s.csLow.get p = true → exec i s = .next s) ∧
    (part = .clock → (s.ports.get p).receiver = .idle ∨ (s.ports.get p).receiver = .ignoring → exec i s = .next s) ∧
    (part = .rise ∨ part = .whole → s.csLow.get p = true → (s.ports.get p).receiver = .ignoring →
      exec i s = .next { s with
        csLow := s.csLow.set p false
        ports := s.ports.set p { s.ports.get p with receiver := .idle } }) ∧
    (part = .rise → s.csLow.get p = false → exec i s = .next s) ∧
    (part = .whole → s.csLow.get p = false → framesTaken s p = false → (s.ports.get p).receiver = .idle →
      exec i s = .next s)

/-- A REQUEST frame on a port with a request in progress is recorded as BUSY and has no other effect: the response
slot, the request in progress and the response that is due stay (R170, check 2; R174). -/
def Obligations.BusyRequests : Prop :=
  ∀ (s : State) (p : Port) (c : RequestCode) (tag : Byte) (body : List Byte),
    CanFrame s p → (s.ports.get p).inProgress ≠ none → body.length ≤ 252 →
    exec (c.command p tag body) s =
      .next { s with ports := s.ports.set p { s.ports.get p with
                receiver := .idle, outcome := .busy, sdo := requestOut s p body } }

/-- A frame in error records FRAME_ERROR and changes nothing else in the part: a frame with further bits, a REQUEST
frame that fails its check, a type that is none of the three. It has shifted out what its first byte calls for: the
stream of a FETCH or of a POLL, otherwise the status byte, and then 0xFF; of the byte that is not whole, its first
bits (R166, R170). -/
def Obligations.FrameErrorsAreRecorded : Prop :=
  ∀ (s : State) (p : Port) (bytes : List Byte) (extra : Nat),
    CanFrame s p → frameVerdict bytes extra = .frameError →
    exec (.frameError p bytes extra) s =
      .next { s with ports := s.ports.set p { s.ports.get p with
                receiver := .idle
                outcome := .frameError
                sdo := shifted (match bytes.head? with
                  | some 0xA2 => fetchStream (snapshot s p)
                  | some 0xA3 => pollStream (snapshot s p)
                  | _ => [statusByte s p]) bytes.length extra } }

/-- The bytes of a FETCH: the status byte, the tag, the result code, the body length in two bytes, the body and the
CRC-8 of all these; with an empty slot NO_RESPONSE, the tag of the request in progress or 0, no body. The bytes of a
POLL: the status byte and the nine flags as they stand, COMMIT_DONE in bit 0 to SUPPLY_WARN in bit 7 of the first
byte, RESET_SEEN in bit 0 of the second. Further bytes are 0xFF. Neither frame changes anything in the part (R175,
R176, R180). -/
def Obligations.FetchAndPollShowTheState : Prop :=
  (∀ (s : State) (p : Port) (sent head : List Byte),
     CanFrame s p →
     ((∃ r, (s.ports.get p).response = some r ∧
         head = [statusByte s p, r.tag, r.code.toByte, BitVec.ofNat 8 r.body.length,
                 BitVec.ofNat 8 (r.body.length / 256)] ++ r.body) ∨
      ((s.ports.get p).response = none ∧ head = [statusByte s p, (s.ports.get p).inProgress.getD 0, 0x04, 0, 0])) →
     exec (.fetch p sent) s =
       .next { s with ports := s.ports.set p { s.ports.get p with
                 receiver := .idle
                 sdo := { bytes := (head ++ [crc8 head] ++ List.replicate (1 + sent.length) 0xFF).take (1 + sent.length)
                          tail := [] } } }) ∧
  (∀ (s : State) (p : Port) (sent : List Byte),
     CanFrame s p →
     exec (.poll p sent) s =
       .next { s with ports := s.ports.set p { s.ports.get p with
                 receiver := .idle
                 sdo := { bytes := (statusByte s p :: flagsBytes (s.flags.get p) ++
                            List.replicate (1 + sent.length) 0xFF).take (1 + sent.length)
                          tail := [] } } }) ∧
  ∀ f : Flags, ∃ lo : Byte, flagsBytes f = [lo, if f.resetSeen then 1 else 0] ∧
    lo.getLsbD 0 = f.commitDone ∧ lo.getLsbD 1 = f.lockGranted ∧ lo.getLsbD 2 = f.lockTimeout ∧
    lo.getLsbD 3 = f.leaseLost ∧ lo.getLsbD 4 = f.noticePending ∧ lo.getLsbD 5 = f.noticeOverflow ∧
    lo.getLsbD 6 = f.layoutChanged ∧ lo.getLsbD 7 = f.supplyWarn

/-- What the status byte says: READY in bit 7, a response in the slot in bit 6, a request in progress in bit 5, the last
outcome in bits 4 and 3, the attention line in bit 2, the administrative port in bit 1, an active session in bit 0; and
when the attention line is asserted (R123, R167, R180). -/
def Obligations.StatusByteAndAttention : Prop :=
  ∀ (s : State) (p : Port),
    (statusByte s p).getLsbD 7 = decide (s.device = .ready) ∧
    (statusByte s p).getLsbD 6 = (s.ports.get p).response.isSome ∧
    (statusByte s p).getLsbD 5 = (s.ports.get p).inProgress.isSome ∧
    (statusByte s p >>> 3) &&& 3 = outcomeByte (s.ports.get p).outcome ∧
    (statusByte s p).getLsbD 2 = attention s p ∧
    (statusByte s p).getLsbD 1 = decide (s.rc.admin = p) ∧
    (statusByte s p).getLsbD 0 = decide ((s.sessions.get p).state ≠ .idle) ∧
    (attention s p = true ↔
      (((s.flags.get p).commitDone ∧ (s.masks.get p).commitDone) ∨
       ((s.flags.get p).lockGranted ∧ (s.masks.get p).lockGranted) ∨
       ((s.flags.get p).lockTimeout ∧ (s.masks.get p).lockTimeout) ∨
       ((s.flags.get p).leaseLost ∧ (s.masks.get p).leaseLost) ∨
       ((s.flags.get p).noticePending ∧ (s.masks.get p).noticePending) ∨
       ((s.flags.get p).noticeOverflow ∧ (s.masks.get p).noticeOverflow) ∨
       ((s.flags.get p).layoutChanged ∧ (s.masks.get p).layoutChanged) ∨
       ((s.flags.get p).supplyWarn ∧ (s.masks.get p).supplyWarn) ∨
       ((s.flags.get p).resetSeen ∧ (s.masks.get p).resetSeen)) ∧
      s.rc.sources = Sources.none ∧ s.clearLow.get p = false)

/-- The command that a frame is gives back the frame's meaning: for every command that a frame can be, the frame made from
it (code byte, tag, body length, body, CRC-8) is judged to be that command again (R166, R169, R170, R180, R181). -/
def Obligations.FramesRoundTrip : Prop :=
  ∀ (i : Instr) (p : Port) (bytes : List Byte) (extra : Nat),
    i.wf = true → encodeFrame i = some (p, bytes, extra) → decodeFrame p bytes extra = some i

/-- A frame by its parts (log 5). The fall of chip select fixes the status byte, a copy of the response slot with the
tag, and the flags; whatever happens until the rise, while the port takes frames, leaves them as they are, and the
bits clocked show them and are counted, their bytes kept up to 257 (R166, R167, R175, R176). The rise judges the
frame: a request is BUSY where one is in progress, otherwise ACCEPTED, with the slot emptied and the mark set; a frame
in error is recorded; a FETCH, a POLL or no bit at all changes nothing. The response then due is written in one step,
and none without a request in progress (R170, R171, R174). A whole frame is its parts with nothing between. -/
def Obligations.FramesByParts : Prop :=
  (∀ (s : State) (p : Port) (i : Instr), FrameOn p .fall i → CanFrame s p →
    exec i s = .next { s with
      csLow := s.csLow.set p true
      ports := s.ports.set p { s.ports.get p with
        receiver := .receiving ⟨statusByte s p, (s.ports.get p).response, (s.ports.get p).inProgress.getD 0, s.flags.get p,
                                0, []⟩ } }) ∧
  (∀ (s t : State) (p : Port) (i : Instr) (f : FrameIn), (s.ports.get p).receiver = .receiving f → exec i s = .next t →
    (∀ part, ¬FrameOn p part i) → framesTaken s p = true → framesTaken t p = true →
    (t.ports.get p).receiver = .receiving f ∧ t.csLow.get p = s.csLow.get p) ∧
  (∀ (s : State) (p : Port) (f : FrameIn) (sent head : List Byte),
    (s.ports.get p).receiver = .receiving f → f.bits = 0 →
    (∀ (c : RequestCode) (tag : Byte) (body : List Byte), body.length ≤ 252 →
      exec (c.command p tag body .clock) s = .next { s with ports := s.ports.set p { s.ports.get p with
        receiver := .receiving { f with bits := 8 * (5 + body.length), bytes := requestFrameBytes c tag body }
        sdo := { bytes := f.status :: List.replicate (4 + body.length) 0xFF, tail := [] } } }) ∧
    ((∃ r, f.slot = some r ∧ head = [f.status, r.tag, r.code.toByte, BitVec.ofNat 8 r.body.length,
          BitVec.ofNat 8 (r.body.length / 256)] ++ r.body) ∨
        (f.slot = none ∧ head = [f.status, f.tag, 0x04, 0, 0]) →
      exec (.fetch p sent .clock) s = .next { s with ports := s.ports.set p { s.ports.get p with
        receiver := .receiving { f with bits := 8 * (1 + sent.length), bytes := (0xA2 :: sent).take 257 }
        sdo := { bytes := (head ++ [crc8 head] ++ List.replicate (1 + sent.length) 0xFF).take (1 + sent.length)
                 tail := [] } } }) ∧
    (exec (.poll p sent .clock) s = .next { s with ports := s.ports.set p { s.ports.get p with
        receiver := .receiving { f with bits := 8 * (1 + sent.length), bytes := (0xA3 :: sent).take 257 }
        sdo := { bytes := (f.status :: flagsBytes f.flags ++
                   List.replicate (1 + sent.length) 0xFF).take (1 + sent.length)
                 tail := [] } } }) ∧
    ∀ bytes extra, frameVerdict bytes extra = .frameError →
      exec (.frameError p bytes extra .clock) s = .next { s with ports := s.ports.set p { s.ports.get p with
        receiver := .receiving { f with bits := 8 * bytes.length + extra, bytes := bytes.take 257 }
        sdo := shifted (match bytes.head? with
          | some 0xA2 => fetchStream f
          | some 0xA3 => pollStream f
          | _ => [f.status]) bytes.length extra } }) ∧
  (∀ (s : State) (p : Port) (f : FrameIn), s.csLow.get p = true → (s.ports.get p).receiver = .receiving f →
    let ended := fun (x : PortIf) =>
      { s with csLow := s.csLow.set p false, ports := s.ports.set p { x with receiver := .idle } }
    (∀ i, FrameOn p .rise i → f.bits = 0 → exec i s = .next (ended (s.ports.get p))) ∧
    (∀ sent : List Byte, f.bits = 8 * (1 + sent.length) →
      (f.bytes = (0xA2 :: sent).take 257 → exec (.fetch p sent .rise) s = .next (ended (s.ports.get p))) ∧
      (f.bytes = (0xA3 :: sent).take 257 → exec (.poll p sent .rise) s = .next (ended (s.ports.get p)))) ∧
    (∀ bytes extra, frameVerdict bytes extra = .frameError → f.bits = 8 * bytes.length + extra →
      f.bytes = bytes.take 257 →
      exec (.frameError p bytes extra .rise) s = .next (ended { s.ports.get p with outcome := .frameError })) ∧
    ∀ (c : RequestCode) (tag : Byte) (body : List Byte), body.length ≤ 252 → f.bits = 8 * (5 + body.length) →
      f.bytes = requestFrameBytes c tag body →
      ((s.ports.get p).inProgress ≠ none →
        exec (c.command p tag body .rise) s = .next (ended { s.ports.get p with outcome := .busy })) ∧
      ((s.ports.get p).inProgress = none → s.reads.get p = none → ∃ t, exec (c.command p tag body .rise) s = .next t ∧
        t.csLow = s.csLow.set p false ∧
        t.ports.get p = { receiver := .idle, outcome := .accepted, inProgress := some tag, response := none
                          due := (t.ports.get p).due, sdo := (s.ports.get p).sdo })) ∧
  (∀ (s : State) (p : Port) (c : RequestCode) (tag : Byte) (body : List Byte),
    (∀ r, (s.ports.get p).inProgress = some tag → (s.ports.get p).due = some r →
      exec (c.command p tag body .reply) s = .next { s with ports := s.ports.set p { s.ports.get p with
        inProgress := none, due := none, response := some r } }) ∧
    ((s.ports.get p).inProgress ≠ some tag ∨ (s.ports.get p).due = none →
      exec (c.command p tag body .reply) s = .next s)) ∧
  ∀ (s : State) (p : Port), CanFrame s p →
    (∀ (c : RequestCode) (tag : Byte) (body : List Byte), (s.ports.get p).inProgress = none → body.length ≤ 252 →
      ∃ s1 s2 s3 t, exec (c.command p tag body .fall) s = .next s1 ∧ exec (c.command p tag body .clock) s1 = .next s2 ∧
        exec (c.command p tag body .rise) s2 = .next s3 ∧ exec (c.command p tag body .reply) s3 = .next t ∧
        exec (c.command p tag body) s = .next t) ∧
    (∀ sent, ∃ s1 s2 t, exec (.fetch p sent .fall) s = .next s1 ∧ exec (.fetch p sent .clock) s1 = .next s2 ∧
      exec (.fetch p sent .rise) s2 = .next t ∧ exec (.fetch p sent) s = .next t) ∧
    (∀ sent, ∃ s1 s2 t, exec (.poll p sent .fall) s = .next s1 ∧ exec (.poll p sent .clock) s1 = .next s2 ∧
      exec (.poll p sent .rise) s2 = .next t ∧ exec (.poll p sent) s = .next t) ∧
    ∀ bytes extra, ∃ s1 s2 t, exec (.frameError p bytes extra .fall) s = .next s1 ∧
      exec (.frameError p bytes extra .clock) s1 = .next s2 ∧ exec (.frameError p bytes extra .rise) s2 = .next t ∧
      exec (.frameError p bytes extra) s = .next t

/-! ## Refusals that many requests share -/

/-- Outside READY every ordinary request is refused NOT_READY; DEFINE, DELETE and SET ACCESS are too, on the
administrative port, and in MOUNTING FORMAT and RESTART (R144). FORMAT, DEFINE, DELETE, SET ACCESS and RESTART from a
port that is not the administrative one are refused NOT_ADMIN, whatever the device state, the session state and the
body (R127). Nothing else changes. -/
def Obligations.NotReadyAndNotAdmin : Prop :=
  (∀ (s : State) (p : Port) (c : RequestCode) (tag : Byte) (body : List Byte),
     CanRequest s p → body.length ≤ 252 → s.device ≠ .ready →
     c ∈ [.nop, .queryRecord, .readRecord, .openRecord, .stage, .append, .commit, .abandon, .fetchCommitResult, .lock,
          .unlock, .fetchLockReport, .watch, .unwatch, .fetchNotice] ∨
       (s.rc.admin = p ∧ c ∈ [.define, .delete, .setAccess]) ∨
       (s.rc.admin = p ∧ s.device = .mounting ∧ c ∈ [.format, .restart]) →
     exec (c.command p tag body) s = .next (answered s p tag body .notReady [])) ∧
  (∀ (s : State) (p : Port) (c : RequestCode) (tag : Byte) (body : List Byte),
     CanRequest s p → body.length ≤ 252 → s.rc.admin ≠ p →
     c ∈ [.format, .define, .delete, .setAccess, .restart] →
     exec (c.command p tag body) s = .next (answered s p tag body .notAdmin []))

/-! ## Requests answered at once (chapters 1, 7 and 11) -/

/-- NOP: in READY answered OK with a copy of its body; in any other device state NOT_READY with an empty body; nothing but
the port's transport state changes (R177). -/
def Obligations.NopEchoes : Prop :=
  ∀ (s : State) (p : Port) (tag : Byte) (body : List Byte),
    CanRequest s p → body.length ≤ 252 →
    exec (.nop p tag body) s =
      .next (if s.device = .ready then answered s p tag body .ok body else answered s p tag body .notReady [])

/-- QUERY RECORD in READY, for a record defined or not: the fields of R16 in the layout of 13.3; a body that is not
one record number, one byte of at most 127, is refused RANGE (R181). Nothing but the port's transport
state changes. -/
def Obligations.QueryRecordReports : Prop :=
  ∀ (s : State) (p : Port) (tag : Byte), CanServe s p →
    (∀ (r : RecNo) (e : LayoutEntry), (slotOf s r).entry = some e →
      exec (.queryRecord p tag [recByte r]) s = .next (answered s p tag [recByte r] .ok
        ([recByte r, 1, natByte e.length, BitVec.ofNat 8 e.basePage, BitVec.ofNat 8 (e.basePage / 256),
          portSetByte e.readSet, portSetByte e.writeSet, if e.guarded then 1 else 0, natByte (extentPages e.length),
          contentByte (slotOf s r).content, optPlaneByte (slotOf s r).content.current] ++
         genBytes (slotOf s r).content.generation ++
         [portSetByte (slotOf s r).watch, if (slotOf s r).watch.get p then 1 else 0,
          if (slotOf s r).deletePending then 1 else 0, optPortByte (lockOf s r).holder, natByte (lockOf s r).lease,
          natByte (lockOf s r).waits.length] ++
         (lockOf s r).waits.flatMap fun w => [portByte w.port, natByte w.remaining]))) ∧
    (∀ r : RecNo, slotOf s r = Slot.undefined → lockOf s r = Lock.free →
      exec (.queryRecord p tag [recByte r]) s = .next (answered s p tag [recByte r] .ok
        [recByte r, 0, 0, 0, 0, 0, 0, 0, 0, 0, 0xFF, 0, 0, 0, 0, 0, 0xFF, 0, 0])) ∧
    (∀ body : List Byte, body.length ≤ 252 → body.length ≠ 1 ∨ (∃ rb : Byte, body = [rb] ∧ 128 ≤ rb.toNat) →
      exec (.queryRecord p tag body) s = .next (answered s p tag body .range [])) ∧
    ∀ r : RecNo, (recByte r).toNat = r.val

/-- DEVICE STATUS, in every device state: device state, reset cause, warning, restart pending, administrative port;
the layout generation and current copy and the number of defined records (0, none and 0 in MOUNTING); the engine with
its entry; the queue, head first. A body is refused RANGE (R156, R178). -/
def Obligations.DeviceStatusReports : Prop :=
  ∀ (s : State) (p : Port) (tag : Byte), CanRequest s p →
    exec (.deviceStatus p tag []) s = .next (answered s p tag [] .ok
      ([deviceByte s.device, causeByte s.rc.cause, if s.rc.warning then 1 else 0, if s.rc.restartPending then 1 else 0,
        portByte s.rc.admin] ++
       (if s.device = .mounting then [0, 0, 0xFF]
        else match s.dir.layout with
          | some v => genBytes v.generation ++ [planeByte v.current]
          | none => [0, 0, 0xFF]) ++
       [engineByte s.engine.state] ++
       (match s.engine.entry with
        | some e => [portByte e.port, e.work.kind.toByte, optRecByte e.work.record?]
        | none => [0xFF, 0xFF, 0xFF]) ++
       [if s.device = .mounting then 0 else natByte (s.dir.slots.cells.countP fun x => x.entry.isSome),
        natByte s.queue.length] ++
       s.queue.flatMap fun e => [portByte e.port, e.work.kind.toByte, optRecByte e.work.record?])) ∧
    ∀ body : List Byte, body.length ≤ 252 → body ≠ [] →
      exec (.deviceStatus p tag body) s = .next (answered s p tag body .range [])

/-- FETCH COMMIT RESULT and FETCH LOCK REPORT: the slot's content or NONE, the three fields of the report; both keep what
they report; a body is refused RANGE (R74, R96). -/
def Obligations.ReportsAreFetched : Prop :=
  ∀ (s : State) (p : Port) (tag : Byte), CanServe s p →
    (∀ x, s.results.get p = some x →
      exec (.fetchCommitResult p tag []) s = .next (answered s p tag [] .ok
        ([optRecByte x.record, x.kind.toByte, x.result.toByte] ++ genBytes x.generation))) ∧
    (s.results.get p = none → exec (.fetchCommitResult p tag []) s = .next (answered s p tag [] .none [])) ∧
    exec (.fetchLockReport p tag []) s = .next (answered s p tag [] .ok
      [optRecByte (s.reports.get p).granted, optRecByte (s.reports.get p).timedOut,
       optRecByte (s.reports.get p).lost]) ∧
    ∀ body : List Byte, body.length ≤ 252 → body ≠ [] →
      exec (.fetchCommitResult p tag body) s = .next (answered s p tag body .range []) ∧
      exec (.fetchLockReport p tag body) s = .next (answered s p tag body .range [])

/-! ## Reads and arbiters (2.7 and chapter 6) -/

/-- READ RECORD by the checks of R102 in order; the one that passes them all is in progress and joins the arbiter of the
current copy's plane (R33, R103). -/
def Obligations.ReadRecordIsTaken : Prop :=
  ∀ (s : State) (p : Port) (tag : Byte), CanServe s p →
    (∀ body : List Byte, body.length ≤ 252 → body.length ≠ 3 →
      exec (.readRecord p tag body) s = .next (answered s p tag body .range [])) ∧
    (∀ rb o n : Byte, 128 ≤ rb.toNat →
      exec (.readRecord p tag [rb, o, n]) s = .next (answered s p tag [rb, o, n] .range [])) ∧
    ∀ (r : RecNo) (o n : Byte),
      ((slotOf s r).entry = none →
        exec (.readRecord p tag [recByte r, o, n]) s =
          .next (answered s p tag [recByte r, o, n] .noRecord [])) ∧
      ∀ e, (slotOf s r).entry = some e →
        (e.readSet.get p = false →
          exec (.readRecord p tag [recByte r, o, n]) s =
            .next (answered s p tag [recByte r, o, n] .noAccess [])) ∧
        (e.readSet.get p = true → (slotOf s r).content = .empty →
          exec (.readRecord p tag [recByte r, o, n]) s =
            .next (answered s p tag [recByte r, o, n] .empty [])) ∧
        (e.readSet.get p = true → (slotOf s r).content = .damaged →
          exec (.readRecord p tag [recByte r, o, n]) s =
            .next (answered s p tag [recByte r, o, n] .damaged [])) ∧
        ∀ c g, e.readSet.get p = true → (slotOf s r).content = .valid c g →
          ((n = 0 ∨ e.length ≤ o.toNat ∨ e.length < o.toNat + n.toNat) →
            exec (.readRecord p tag [recByte r, o, n]) s =
              .next (answered s p tag [recByte r, o, n] .range [])) ∧
          (n ≠ 0 → o.toNat < e.length → o.toNat + n.toNat ≤ e.length →
            exec (.readRecord p tag [recByte r, o, n]) s =
              .next (joinRead c p { awaiting s p tag [recByte r, o, n] with
                reads := s.reads.set p (some { kind := .record o.toNat n.toNat, record := r, basePage := e.basePage,
                                               length := e.length, plane := c, phase := .waiting, inUse := false }) }))

/-- What a requester that joins an arbiter and the end of a tenure make of the plane: a free plane is granted at once,
else the requester waits; at a boundary the first waiting read after the rotation pointer, else the engine, else no
one. The pointer names the last read granted and changes in no other case (R33, R34). -/
def Obligations.PlanesAreGranted : Prop :=
  ∀ (s : State) (pl : Plane),
    (∀ p rd, s.reads.get p = some rd →
      ((s.arbiters.get pl).holder = .none →
        joinRead pl p s = { s with
          arbiters := s.arbiters.set pl { s.arbiters.get pl with
            holder := .read p, pointer := p, waiting := (s.arbiters.get pl).waiting.set p false }
          reads := s.reads.set p (some { rd with phase := .reading }) }) ∧
      ((s.arbiters.get pl).holder ≠ .none →
        joinRead pl p s = { s with
          arbiters := s.arbiters.set pl { s.arbiters.get pl with
            waiting := (s.arbiters.get pl).waiting.set p true } })) ∧
    ((s.arbiters.get pl).holder = .none →
      joinEngine pl s = { s with arbiters := s.arbiters.set pl { s.arbiters.get pl with holder := .engine } }) ∧
    ((s.arbiters.get pl).holder ≠ .none →
      joinEngine pl s = { s with arbiters := s.arbiters.set pl { s.arbiters.get pl with engineWaiting := true } }) ∧
    (∀ p rd, (s.arbiters.get pl).waiting.get p = true → s.reads.get p = some rd →
      (∀ q, (s.arbiters.get pl).waiting.get q = true → q ≠ p →
        (portIndex p + 3 - portIndex (s.arbiters.get pl).pointer) % 4 <
          (portIndex q + 3 - portIndex (s.arbiters.get pl).pointer) % 4) →
      endTenure pl s = { s with
        arbiters := s.arbiters.set pl { s.arbiters.get pl with
          holder := .read p, pointer := p, waiting := (s.arbiters.get pl).waiting.set p false }
        reads := s.reads.set p (some { rd with phase := .reading }) }) ∧
    ((s.arbiters.get pl).waiting = PortSet.empty → (s.arbiters.get pl).engineWaiting = true →
      endTenure pl s = { s with arbiters := s.arbiters.set pl { s.arbiters.get pl with
        holder := .engine, engineWaiting := false } }) ∧
    ((s.arbiters.get pl).waiting = PortSet.empty → (s.arbiters.get pl).engineWaiting = false →
      endTenure pl s = { s with arbiters := s.arbiters.set pl { s.arbiters.get pl with holder := .none } })

/-- The end of a READ RECORD's tenure: OK with the generation and the data bytes of the image in the array, and the
plane is granted on; the array is unchanged. Inside the record the data are bytes offset to offset + count - 1 after
the eight header bytes. A discarded read ends without a response (R19, R104, R105, R110). An
extent that passes the array, which no admitted record has, is the model's fault (log 8). -/
def Obligations.ReadTenureEnds : Prop :=
  ∀ (s : State) (pl : Plane) (p : Port) (rd : Read) (o n : Nat) (tag : Byte),
    ((s.arbiters.get pl).holder = .read p → s.reads.get p = some rd → rd.kind = .record o n → rd.phase = .reading →
      rd.plane = pl → (s.ports.get p).inProgress = some tag →
      (extentInArray rd.basePage (extentPages rd.length) = true →
        exec (.readTenureEnd pl) s = .next { endTenure pl { s with reads := s.reads.set p none } with
          ports := withResponse s p tag .ok
            ([memRead s.array (pageAddress pl rd.basePage + 4), memRead s.array (pageAddress pl rd.basePage + 5)] ++
             imageData (readExtent s.array pl rd.basePage (extentPages rd.length)) o n) }) ∧
      (extentInArray rd.basePage (extentPages rd.length) = true → o + n ≤ rd.length →
        exec (.readTenureEnd pl) s = .next { endTenure pl { s with reads := s.reads.set p none } with
          ports := withResponse s p tag .ok
            ([memRead s.array (pageAddress pl rd.basePage + 4), memRead s.array (pageAddress pl rd.basePage + 5)] ++
             memReadBytes s.array (pageAddress pl rd.basePage + 8 + o) n) }) ∧
      (extentInArray rd.basePage (extentPages rd.length) = false →
        exec (.readTenureEnd pl) s = .fault .pageOutsideArray)) ∧
    ((s.arbiters.get pl).holder = .discarded p false → exec (.readTenureEnd pl) s = .next (endTenure pl s))

/-! ## Sessions and commits (chapters 3 and 4) -/

/-- OPEN by the checks of R42 in order: the session IDLE, the body, the record defined, the rights (COPY needs both),
delete pending, and for COPY the content. One that passes, in BLANK mode: the session is STAGING with an empty buffer,
its base generation the directory's; in COPY mode: in progress, the session still IDLE, and the read joins the arbiter
of the current copy's plane (R42, R43, R44). -/
def Obligations.OpensAreTaken : Prop :=
  (∀ (s : State) (p : Port) (tag : Byte), CanServe s p →
     (∀ body : List Byte, body.length ≤ 252 → (s.sessions.get p).state ≠ .idle →
       exec (.openRecord p tag body) s = .next (answered s p tag body .state [])) ∧
     ((s.sessions.get p).state = .idle →
       (∀ body : List Byte, body.length ≤ 252 → body.length ≠ 2 →
         exec (.openRecord p tag body) s = .next (answered s p tag body .range [])) ∧
       (∀ rb m : Byte, 128 ≤ rb.toNat ∨ 2 ≤ m.toNat →
         exec (.openRecord p tag [rb, m]) s = .next (answered s p tag [rb, m] .range [])) ∧
       ∀ (r : RecNo) (m : Byte), m = 0 ∨ m = 1 →
         ((slotOf s r).entry = none →
           exec (.openRecord p tag [recByte r, m]) s = .next (answered s p tag [recByte r, m] .noRecord [])) ∧
         ∀ e, (slotOf s r).entry = some e →
           (e.writeSet.get p = false ∨ (m = 0 ∧ e.readSet.get p = false) →
             exec (.openRecord p tag [recByte r, m]) s = .next (answered s p tag [recByte r, m] .noAccess [])) ∧
           (e.writeSet.get p = true → (m = 0 → e.readSet.get p = true) →
             ((slotOf s r).deletePending = true →
               exec (.openRecord p tag [recByte r, m]) s = .next (answered s p tag [recByte r, m] .inUse [])) ∧
             ((slotOf s r).deletePending = false → m = 0 → (slotOf s r).content = .empty →
               exec (.openRecord p tag [recByte r, m]) s = .next (answered s p tag [recByte r, m] .empty [])) ∧
             ((slotOf s r).deletePending = false → m = 0 → (slotOf s r).content = .damaged →
               exec (.openRecord p tag [recByte r, m]) s = .next (answered s p tag [recByte r, m] .damaged []))))) ∧
  (∀ (s : State) (p : Port) (tag : Byte) (r : RecNo) (e : LayoutEntry),
     CanServe s p → (s.sessions.get p).state = .idle → (slotOf s r).entry = some e → e.writeSet.get p = true →
     (slotOf s r).deletePending = false →
     exec (.openRecord p tag [recByte r, 1]) s =
       .next { answered s p tag [recByte r, 1] .ok (natByte e.length :: genBytes (slotOf s r).content.generation) with
         sessions := s.sessions.set p { state := .staging, record := some r,
                                        baseGen := (slotOf s r).content.generation, fill := 0, overrun := false,
                                        buffer := emptyBuffer } } ∧
     ∀ c g, e.readSet.get p = true → (slotOf s r).content = .valid c g →
       exec (.openRecord p tag [recByte r, 0]) s =
         .next (joinRead c p { awaiting s p tag [recByte r, 0] with
           reads := s.reads.set p (some { kind := .openCopy, record := r, basePage := e.basePage, length := e.length,
                                          plane := c, phase := .waiting, inUse := false }) }))

/-- The end of an OPEN COPY tenure: the image's data bytes are in front of an otherwise empty buffer, the session
STAGING with the image's generation as its base, OK with the length and that generation; where the record's DELETE was
accepted meanwhile the OPEN is refused IN_USE and the session stays; a discarded read ends without effect (R44, R45,
R110). An extent that passes the array, which no admitted record has, is the model's fault (log 8). -/
def Obligations.OpenCopyLoads : Prop :=
  ∀ (s : State) (pl : Plane) (p : Port) (rd : Read) (tag : Byte),
    ((s.arbiters.get pl).holder = .read p → s.reads.get p = some rd → rd.kind = .openCopy → rd.phase = .reading →
      rd.plane = pl → (s.ports.get p).inProgress = some tag →
      (extentInArray rd.basePage (extentPages rd.length) = true → rd.inUse = false →
        exec (.openCopyLoad pl) s = .next { endTenure pl { s with reads := s.reads.set p none } with
          ports := withResponse s p tag .ok
            [natByte rd.length, memRead s.array (pageAddress pl rd.basePage + 4),
             memRead s.array (pageAddress pl rd.basePage + 5)]
          sessions := s.sessions.set p { state := .staging, record := some rd.record, fill := 0, overrun := false
                                         baseGen := genOfBytes (memRead s.array (pageAddress pl rd.basePage + 4))
                                           (memRead s.array (pageAddress pl rd.basePage + 5))
                                         buffer := Table.ofList 248 0 (memReadBytes s.array
                                           (pageAddress pl rd.basePage + 8) rd.length) } }) ∧
      (extentInArray rd.basePage (extentPages rd.length) = true → rd.inUse = true →
        exec (.openCopyLoad pl) s = .next { endTenure pl { s with reads := s.reads.set p none } with
          ports := withResponse s p tag .inUse [] }) ∧
      (extentInArray rd.basePage (extentPages rd.length) = false →
        exec (.openCopyLoad pl) s = .fault .pageOutsideArray)) ∧
    ((s.arbiters.get pl).holder = .discarded p true → exec (.openCopyLoad pl) s = .next (endTenure pl s))

/-- STAGE and APPEND by their checks in order; one that passes stores its bytes from its offset, or from the fill
pointer, up to the record's last byte; the fill pointer, the overrun mark and the answer follow. A stored byte is the
datum at its place; every other byte of the buffer stays (R47, R48, R49). -/
def Obligations.StageAndAppendStore : Prop :=
  ((∀ (s : State) (p : Port) (tag : Byte), CanServe s p →
     (∀ body : List Byte, body.length ≤ 252 → (s.sessions.get p).state ≠ .staging →
       exec (.stage p tag body) s = .next (answered s p tag body .state [])) ∧
     ∀ (r : RecNo) (e : LayoutEntry), (s.sessions.get p).state = .staging → (s.sessions.get p).record = some r →
       (slotOf s r).entry = some e →
       (∀ body : List Byte, body.length ≤ 252 →
         (body.length < 2 ∨ 249 < body.length ∨ e.length ≤ (body.headD 0).toNat) →
         exec (.stage p tag body) s =
           .next (answered s p tag body .range [natByte (s.sessions.get p).fill, 0])) ∧
       ∀ (o : Byte) (data : List Byte), 1 ≤ data.length → data.length ≤ 248 → o.toNat < e.length →
         exec (.stage p tag (o :: data)) s =
           .next { answered s p tag (o :: data) (if e.length < o.toNat + data.length then .overrun else .ok)
                     [natByte (min (o.toNat + data.length) e.length),
                      natByte (min data.length (e.length - o.toNat))] with
             sessions := s.sessions.set p { s.sessions.get p with
               buffer := storeAt (s.sessions.get p).buffer o.toNat (data.take (e.length - o.toNat))
               fill := min (o.toNat + data.length) e.length
               overrun := (s.sessions.get p).overrun || decide (e.length < o.toNat + data.length) } }) ∧
   ∀ (b : Table 248 Byte) (o : Nat) (data : List Byte) (i : Fin 248), o + data.length ≤ 248 →
     (storeAt b o data).get i = if o ≤ i.val ∧ i.val < o + data.length then data.getD (i.val - o) 0 else b.get i) ∧
  (∀ (s : State) (p : Port) (tag : Byte) (body : List Byte), CanServe s p → body.length ≤ 252 →
     ((s.sessions.get p).state ≠ .staging → exec (.append p tag body) s = .next (answered s p tag body .state [])) ∧
     ((s.sessions.get p).state = .staging → body = [] ∨ 248 < body.length →
       exec (.append p tag body) s = .next (answered s p tag body .range [])) ∧
     ∀ (r : RecNo) (e : LayoutEntry), (s.sessions.get p).state = .staging → (s.sessions.get p).record = some r →
       (slotOf s r).entry = some e → body ≠ [] → body.length ≤ 248 → (s.sessions.get p).fill ≤ e.length →
       exec (.append p tag body) s =
         .next { answered s p tag body (if e.length < (s.sessions.get p).fill + body.length then .overrun else .ok)
                   [natByte (min ((s.sessions.get p).fill + body.length) e.length),
                    natByte (min body.length (e.length - (s.sessions.get p).fill))] with
           sessions := s.sessions.set p { s.sessions.get p with
             buffer := storeAt (s.sessions.get p).buffer (s.sessions.get p).fill
               (body.take (e.length - (s.sessions.get p).fill))
             fill := min ((s.sessions.get p).fill + body.length) e.length
             overrun := (s.sessions.get p).overrun || decide (e.length < (s.sessions.get p).fill + body.length) } })

/-- COMMIT by the checks of R58 in order; one that passes joins the tail of the queue with the session's record and base
generation, and the session becomes QUEUED with its buffer as it was (R50, R58, R59). -/
def Obligations.CommitsAreQueued : Prop :=
  ∀ (s : State) (p : Port) (tag : Byte) (body : List Byte), CanServe s p → body.length ≤ 252 →
    ((s.sessions.get p).state ≠ .staging → exec (.commit p tag body) s = .next (answered s p tag body .state [])) ∧
    ((s.sessions.get p).state = .staging → body ≠ [0] → body ≠ [1] →
      exec (.commit p tag body) s = .next (answered s p tag body .range [])) ∧
    ∀ (r : RecNo) (cond : Condition), (s.sessions.get p).state = .staging → (s.sessions.get p).record = some r →
      (body = [0] ∧ cond = .any ∨ body = [1] ∧ cond = .matching) →
      ((s.sessions.get p).overrun = true →
        exec (.commit p tag body) s = .next (answered s p tag body .overrun [])) ∧
      ((s.sessions.get p).overrun = false → s.rc.warning = true →
        exec (.commit p tag body) s = .next (answered s p tag body .power [])) ∧
      ((s.sessions.get p).overrun = false → s.rc.warning = false → s.rc.restartPending = true →
        exec (.commit p tag body) s = .next (answered s p tag body .restarting [])) ∧
      ((s.sessions.get p).overrun = false → s.rc.warning = false → s.rc.restartPending = false →
        exec (.commit p tag body) s =
          .next { answered s p tag body .queued [] with
            sessions := s.sessions.set p { s.sessions.get p with state := .queued }
            queue := s.queue ++ [⟨p, .record r cond (s.sessions.get p).baseGen⟩] })

/-- ABANDON by session state: IDLE nothing; STAGING discards the edit; QUEUED removes the port's entry, a DELETE's
with its delete-pending mark, the entries behind keeping their order; PROGRAMMING is refused STATE. A body is refused
RANGE (R51, R52, R61). -/
def Obligations.AbandonBySession : Prop :=
  ∀ (s : State) (p : Port) (tag : Byte), CanServe s p →
    (∀ body : List Byte, body.length ≤ 252 → body ≠ [] →
      exec (.abandon p tag body) s = .next (answered s p tag body .range [])) ∧
    ((s.sessions.get p).state = .idle → exec (.abandon p tag []) s = .next (answered s p tag [] .ok [])) ∧
    ((s.sessions.get p).state = .programming → exec (.abandon p tag []) s = .next (answered s p tag [] .state [])) ∧
    ((s.sessions.get p).state = .staging →
      exec (.abandon p tag []) s = .next { answered s p tag [] .ok [] with
        sessions := s.sessions.set p Session.reset }) ∧
    ∀ e : Entry, (s.sessions.get p).state = .queued → s.queue.find? (fun e => e.port = p) = some e →
      ((∀ r, e.work ≠ .layout (.delete r)) →
        exec (.abandon p tag []) s = .next { answered s p tag [] .ok [] with
          sessions := s.sessions.set p Session.reset
          queue := s.queue.filter fun e => e.port ≠ p }) ∧
      ∀ r, e.work = .layout (.delete r) →
        exec (.abandon p tag []) s = .next { answered s p tag [] .ok [] with
          sessions := s.sessions.set p Session.reset
          queue := s.queue.filter fun e => e.port ≠ p
          dir := { s.dir with slots := s.dir.slots.set r { slotOf s r with deletePending := false } } }

/-! ## Locks (chapter 5) -/

/-- LOCK by the checks of R85 in order, RANGE for a body that is not a record number of at most 127 (R181), a lease
other than 0 and a wait, then on the lock as it stands: free, held by the port, held by another without or with a wait
(R86). -/
def Obligations.LocksAreAsked : Prop :=
  ∀ (s : State) (p : Port) (tag : Byte), CanServe s p →
    (∀ body : List Byte, body.length ≤ 252 →
      body.length ≠ 3 ∨ (∃ rb l w : Byte, body = [rb, l, w] ∧ (128 ≤ rb.toNat ∨ l = 0)) →
      exec (.lock p tag body) s = .next (answered s p tag body .range [])) ∧
    ∀ (r : RecNo) (l w : Byte), l ≠ 0 →
      ((slotOf s r).entry = none →
        exec (.lock p tag [recByte r, l, w]) s = .next (answered s p tag [recByte r, l, w] .noRecord [])) ∧
      ∀ e, (slotOf s r).entry = some e →
        (e.writeSet.get p = false →
          exec (.lock p tag [recByte r, l, w]) s = .next (answered s p tag [recByte r, l, w] .noAccess [])) ∧
        (e.writeSet.get p = true → (slotOf s r).deletePending = true →
          exec (.lock p tag [recByte r, l, w]) s = .next (answered s p tag [recByte r, l, w] .inUse [])) ∧
        (e.writeSet.get p = true → (slotOf s r).deletePending = false →
          (lockOf s r = Lock.free →
            exec (.lock p tag [recByte r, l, w]) s =
              .next { answered s p tag [recByte r, l, w] .ok [recByte r, l, 0] with
                locks := s.locks.set r { holder := some p, lease := l.toNat, leaseDue := false, waits := [] } }) ∧
          ((lockOf s r).holder = some p →
            exec (.lock p tag [recByte r, l, w]) s =
              .next { answered s p tag [recByte r, l, w] .ok [recByte r, l, 1] with
                locks := s.locks.set r { lockOf s r with lease := l.toNat, leaseDue := false } }) ∧
          ∀ h, (lockOf s r).holder = some h → h ≠ p →
            (w = 0 →
              exec (.lock p tag [recByte r, l, w]) s =
                .next (answered s p tag [recByte r, l, w] .locked [portByte h])) ∧
            (w ≠ 0 → (∃ r', waitsOn (lockOf s r') p = true) →
              exec (.lock p tag [recByte r, l, w]) s = .next (answered s p tag [recByte r, l, w] .state [])) ∧
            (w ≠ 0 → (∀ r', waitsOn (lockOf s r') p = false) →
              exec (.lock p tag [recByte r, l, w]) s =
                .next { answered s p tag [recByte r, l, w] .waiting
                          [portByte h, natByte ((lockOf s r).waits.length + 1)] with
                  locks := s.locks.set r { lockOf s r with
                    waits := (lockOf s r).waits ++ [⟨p, w.toNat, l.toNat, false⟩] } }))

/-- UNLOCK by its checks, RANGE for a body that is not one record number of at most 127 (R181), then on the lock as it
stands: the holder releases it, to no one or to the head waiter with that waiter's lease, report and LOCK_GRANTED; a
waiter leaves the list; any other port is refused NOT_HOLDER (R88, R89). -/
def Obligations.LocksAreReleased : Prop :=
  ∀ (s : State) (p : Port) (tag : Byte), CanServe s p →
    (∀ body : List Byte, body.length ≤ 252 → body.length ≠ 1 ∨ (∃ rb : Byte, body = [rb] ∧ 128 ≤ rb.toNat) →
      exec (.unlock p tag body) s = .next (answered s p tag body .range [])) ∧
    ∀ r : RecNo,
      ((slotOf s r).entry = none →
        exec (.unlock p tag [recByte r]) s = .next (answered s p tag [recByte r] .noRecord [])) ∧
      ((slotOf s r).entry ≠ none →
        ((lockOf s r).holder = some p → (lockOf s r).waits = [] →
          exec (.unlock p tag [recByte r]) s =
            .next { answered s p tag [recByte r] .ok [0, 0xFF] with locks := s.locks.set r Lock.free }) ∧
        (∀ w ws, (lockOf s r).holder = some p → (lockOf s r).waits = w :: ws →
          exec (.unlock p tag [recByte r]) s =
            .next { answered s p tag [recByte r] .ok [0, portByte w.port] with
              locks := s.locks.set r { holder := some w.port, lease := w.lease, leaseDue := false, waits := ws }
              reports := s.reports.set w.port { s.reports.get w.port with granted := some r }
              flags := s.flags.set w.port { s.flags.get w.port with lockGranted := true } }) ∧
        ((lockOf s r).holder ≠ some p → waitsOn (lockOf s r) p = true →
          exec (.unlock p tag [recByte r]) s =
            .next { answered s p tag [recByte r] .ok [1, 0xFF] with
              locks := s.locks.set r { lockOf s r with
                waits := (lockOf s r).waits.filter fun w => w.port ≠ p } }) ∧
        ((lockOf s r).holder ≠ some p → waitsOn (lockOf s r) p = false →
          exec (.unlock p tag [recByte r]) s = .next (answered s p tag [recByte r] .notHolder [])))

/-- The end of a timebase period, at every lock: the lease of a held lock and every wait remaining fall by one; one
that stands at 1 has run out, and the model keeps it at 1 and marks its expiry due (the mark is the model's, log 9).
The expiry then taken: of a lease, the former holder's report and LEASE_LOST, the lock free or handed on; of a wait,
the entry leaves its list with its report and LOCK_TIMEOUT (R84, R88, R90, R91). An expiry that is not due is not
taken (log 1). -/
def Obligations.CountdownsRunOut : Prop :=
  (∀ s : State, ∃ t, exec .timebasePeriodEnd s = .next t ∧ t = { s with locks := t.locks } ∧
     ∀ r,
       (lockOf t r).holder = (lockOf s r).holder ∧
       ((lockOf s r).holder = none → (lockOf t r).lease = (lockOf s r).lease ∧
         (lockOf t r).leaseDue = (lockOf s r).leaseDue) ∧
       ((lockOf s r).holder ≠ none → 2 ≤ (lockOf s r).lease → (lockOf t r).lease = (lockOf s r).lease - 1 ∧
         (lockOf t r).leaseDue = (lockOf s r).leaseDue) ∧
       ((lockOf s r).holder ≠ none → (lockOf s r).lease = 1 → (lockOf t r).lease = 1 ∧
         (lockOf t r).leaseDue = true) ∧
       (lockOf t r).waits = (lockOf s r).waits.map fun w =>
         if w.remaining ≤ 1 then { w with due := true } else { w with remaining := w.remaining - 1 }) ∧
  (∀ (s : State) (r : RecNo),
     (∀ h, (lockOf s r).holder = some h → (lockOf s r).leaseDue = true →
       ((lockOf s r).waits = [] →
         exec (.leaseExpiry r) s = .next { s with
           locks := s.locks.set r Lock.free
           reports := s.reports.set h { s.reports.get h with lost := some r }
           flags := s.flags.set h { s.flags.get h with leaseLost := true } }) ∧
       ∀ w ws, (lockOf s r).waits = w :: ws → w.port ≠ h →
         exec (.leaseExpiry r) s = .next { s with
           locks := s.locks.set r { holder := some w.port, lease := w.lease, leaseDue := false, waits := ws }
           reports := (s.reports.set h { s.reports.get h with lost := some r }).set w.port
             { s.reports.get w.port with granted := some r }
           flags := (s.flags.set h { s.flags.get h with leaseLost := true }).set w.port
             { s.flags.get w.port with lockGranted := true } }) ∧
     ((lockOf s r).leaseDue = false → exec (.leaseExpiry r) s = .next s) ∧
     ∀ p,
       ((∃ w ∈ (lockOf s r).waits, w.port = p ∧ w.due = true) →
         exec (.waitExpiry r p) s = .next { s with
           locks := s.locks.set r { lockOf s r with waits := (lockOf s r).waits.filter fun w => w.port ≠ p }
           reports := s.reports.set p { s.reports.get p with timedOut := some r }
           flags := s.flags.set p { s.flags.get p with lockTimeout := true } }) ∧
       ((∀ w ∈ (lockOf s r).waits, w.port = p → w.due = false) → exec (.waitExpiry r p) s = .next s))

/-! ## Notices and attention (chapter 7) -/

/-- WATCH by the checks of R113 in order: the port joins the watch set, OK with state, generation and whether it was a
member. Both are refused RANGE for a body that is not one record number of at most 127 (R181). UNWATCH, of any record
number: the port leaves the set and its notice for the record leaves its queue, NOTICE_PENDING following it (R113,
R114, R120). -/
def Obligations.WatchSetsChange : Prop :=
  ∀ (s : State) (p : Port) (tag : Byte), CanServe s p →
    (∀ body : List Byte, body.length ≤ 252 → body.length ≠ 1 ∨ (∃ rb : Byte, body = [rb] ∧ 128 ≤ rb.toNat) →
      exec (.watch p tag body) s = .next (answered s p tag body .range []) ∧
      exec (.unwatch p tag body) s = .next (answered s p tag body .range [])) ∧
    ∀ r : RecNo,
      ((slotOf s r).entry = none →
        exec (.watch p tag [recByte r]) s = .next (answered s p tag [recByte r] .noRecord [])) ∧
      (∀ e, (slotOf s r).entry = some e → e.readSet.get p = false →
        exec (.watch p tag [recByte r]) s = .next (answered s p tag [recByte r] .noAccess [])) ∧
      (∀ e, (slotOf s r).entry = some e → e.readSet.get p = true →
        exec (.watch p tag [recByte r]) s =
          .next { answered s p tag [recByte r] .ok
                    ([contentByte (slotOf s r).content] ++ genBytes (slotOf s r).content.generation ++
                     [if (slotOf s r).watch.get p then 1 else 0]) with
            dir := { s.dir with slots := s.dir.slots.set r { slotOf s r with
              watch := (slotOf s r).watch.set p true } } }) ∧
      exec (.unwatch p tag [recByte r]) s =
        .next { answered s p tag [recByte r] .ok
                  [if (slotOf s r).watch.get p then 1 else 0,
                   if ∃ n ∈ s.notices.get p, n.record = r then 1 else 0] with
          dir := { s.dir with slots := s.dir.slots.set r { slotOf s r with watch := (slotOf s r).watch.set p false } }
          notices := s.notices.set p ((s.notices.get p).filter fun n => n.record ≠ r)
          flags := s.flags.set p { s.flags.get p with
            noticePending := decide ((s.notices.get p).filter (fun n => n.record ≠ r) ≠ []) } }

/-- FETCH NOTICE: NONE where the queue is empty; else the head notice leaves it and is the response, with the number of
notices left, and NOTICE_PENDING clears with the last (R118, R120). -/
def Obligations.NoticesAreFetched : Prop :=
  ∀ (s : State) (p : Port) (tag : Byte), CanServe s p →
    (∀ body : List Byte, body.length ≤ 252 → body ≠ [] →
      exec (.fetchNotice p tag body) s = .next (answered s p tag body .range [])) ∧
    (s.notices.get p = [] → exec (.fetchNotice p tag []) s = .next (answered s p tag [] .none [])) ∧
    ∀ n ns, s.notices.get p = n :: ns →
      exec (.fetchNotice p tag []) s =
        .next { answered s p tag [] .ok
                  ([recByte n.record] ++ genBytes n.generation ++ [portByte n.committer, natByte ns.length]) with
          notices := s.notices.set p ns
          flags := s.flags.set p { s.flags.get p with noticePending := decide (ns ≠ []) } }

/-- ACKNOWLEDGE clears the named flags but NOTICE_PENDING and answers the flags as they then stand; SET ATTENTION MASK
replaces the mask and answers it; both in every device state, and RANGE for a body that is not a flag set: two bytes,
the bits of the flags as 13.2 gives them, bits 9 to 15 zero (R121, R122, R181). -/
def Obligations.FlagsAreAcknowledged : Prop :=
  (∀ (s : State) (p : Port) (tag : Byte) (body : List Byte), CanRequest s p → body.length ≤ 252 →
    (flagBody body = none →
      exec (.acknowledge p tag body) s = .next (answered s p tag body .range []) ∧
      exec (.setAttentionMask p tag body) s = .next (answered s p tag body .range [])) ∧
    ∀ m, flagBody body = some m →
      let f := s.flags.get p
      let g : Flags :=
        ⟨f.commitDone && !m.commitDone, f.lockGranted && !m.lockGranted, f.lockTimeout && !m.lockTimeout,
         f.leaseLost && !m.leaseLost, f.noticePending, f.noticeOverflow && !m.noticeOverflow,
         f.layoutChanged && !m.layoutChanged, f.supplyWarn && !m.supplyWarn, f.resetSeen && !m.resetSeen⟩
      exec (.acknowledge p tag body) s =
        .next { answered s p tag body .ok (flagsBytes g) with flags := s.flags.set p g } ∧
      exec (.setAttentionMask p tag body) s =
        .next { answered s p tag body .ok (flagsBytes m) with masks := s.masks.set p m }) ∧
  ∀ (body : List Byte) (m : Flags),
    flagBody body = some m ↔ ∃ lo hi : Byte, body = [lo, hi] ∧ hi.toNat < 2 ∧
      m.commitDone = lo.getLsbD 0 ∧ m.lockGranted = lo.getLsbD 1 ∧ m.lockTimeout = lo.getLsbD 2 ∧
      m.leaseLost = lo.getLsbD 3 ∧ m.noticePending = lo.getLsbD 4 ∧ m.noticeOverflow = lo.getLsbD 5 ∧
      m.layoutChanged = lo.getLsbD 6 ∧ m.supplyWarn = lo.getLsbD 7 ∧ m.resetSeen = hi.getLsbD 0

/-! ## Layout requests (chapter 8) -/

/-- FORMAT and SET ACCESS on the administrative port with an IDLE session, by the rest of the checks of R129 with
their own (R130, R133). RANGE: FORMAT with a body; SET ACCESS without exactly a record number of at most 127, two port
sets with bits 4 to 7 zero, bit i for port i, and a guarded byte of 0 or 1 (R181). In order: the one that passes them
joins the tail of the queue and its session is QUEUED. -/
def Obligations.FormatAndSetAccessAreQueued : Prop :=
  (∀ set : PortSet, SpellsSet (portSetByte set) set) ∧
  ∀ (s : State) (p : Port) (tag : Byte), CanRequest s p → s.rc.admin = p →
    (s.device ≠ .mounting → (s.sessions.get p).state = .idle →
      (∀ body : List Byte, body.length ≤ 252 → body ≠ [] →
        exec (.format p tag body) s = .next (answered s p tag body .range [])) ∧
      (s.device = .ready → (∃ r, (slotOf s r).entry ≠ none) →
        exec (.format p tag []) s = .next (answered s p tag [] .inUse [])) ∧
      (s.device ≠ .ready ∨ (∀ r, (slotOf s r).entry = none) →
        (s.rc.warning = true → exec (.format p tag []) s = .next (answered s p tag [] .power [])) ∧
        (s.rc.warning = false → s.rc.restartPending = true →
          exec (.format p tag []) s = .next (answered s p tag [] .restarting [])) ∧
        (s.rc.warning = false → s.rc.restartPending = false →
          exec (.format p tag []) s = .next { answered s p tag [] .queued [] with
            sessions := s.sessions.set p { s.sessions.get p with state := .queued }
            queue := s.queue ++ [⟨p, .layout .format⟩] }))) ∧
    (s.device = .ready → (s.sessions.get p).state = .idle →
      (∀ body : List Byte, body.length ≤ 252 →
        body.length ≠ 4 ∨ (∃ rb x y g : Byte, body = [rb, x, y, g] ∧
          (128 ≤ rb.toNat ∨ 16 ≤ x.toNat ∨ 16 ≤ y.toNat ∨ 2 ≤ g.toNat)) →
        exec (.setAccess p tag body) s = .next (answered s p tag body .range [])) ∧
      ∀ (r : RecNo) (rs ws : PortSet) (g : Bool) (body : List Byte),
        body = [recByte r, portSetByte rs, portSetByte ws, if g then 1 else 0] →
        ((slotOf s r).entry = none →
          exec (.setAccess p tag body) s = .next (answered s p tag body .noRecord [])) ∧
        ((slotOf s r).entry ≠ none → s.rc.warning = true →
          exec (.setAccess p tag body) s = .next (answered s p tag body .power [])) ∧
        ((slotOf s r).entry ≠ none → s.rc.warning = false → s.rc.restartPending = true →
          exec (.setAccess p tag body) s = .next (answered s p tag body .restarting [])) ∧
        ((slotOf s r).entry ≠ none → s.rc.warning = false → s.rc.restartPending = false →
          exec (.setAccess p tag body) s = .next { answered s p tag body .queued [] with
            sessions := s.sessions.set p { s.sessions.get p with state := .queued }
            queue := s.queue ++ [⟨p, .layout (.setAccess r rs ws g)⟩] })) ∧
    ((s.sessions.get p).state ≠ .idle → ∀ body : List Byte, body.length ≤ 252 →
      (s.device ≠ .mounting → exec (.format p tag body) s = .next (answered s p tag body .state [])) ∧
      (s.device = .ready → exec (.setAccess p tag body) s = .next (answered s p tag body .state []) ∧
        exec (.define p tag body) s = .next (answered s p tag body .state []) ∧
        exec (.delete p tag body) s = .next (answered s p tag body .state [])))

/-- DEFINE on the administrative port in READY with an IDLE session, by the rest of the checks of R129 with its own:
the record defined, a place that is not legal, an extent that shares a page with a defined one (R24, R131). RANGE also
for a body without exactly a record number of at most 127, a length, a base page, two port sets with bits 4 to 7 zero
and a guarded byte of 0 or 1 (R181). -/
def Obligations.DefinesAreQueued : Prop :=
  ∀ (s : State) (p : Port) (tag : Byte), CanServe s p → s.rc.admin = p → (s.sessions.get p).state = .idle →
    (∀ body : List Byte, body.length ≤ 252 →
      body.length ≠ 7 ∨ (∃ rb len b0 b1 x y g : Byte, body = [rb, len, b0, b1, x, y, g] ∧
        (128 ≤ rb.toNat ∨ 16 ≤ x.toNat ∨ 16 ≤ y.toNat ∨ 2 ≤ g.toNat)) →
      exec (.define p tag body) s = .next (answered s p tag body .range [])) ∧
    ∀ (r : RecNo) (e : LayoutEntry) (body : List Byte), e.length ≤ 255 → e.basePage ≤ 65535 →
      body = [recByte r, natByte e.length, BitVec.ofNat 8 e.basePage, BitVec.ofNat 8 (e.basePage / 256),
              portSetByte e.readSet, portSetByte e.writeSet, if e.guarded then 1 else 0] →
      ((slotOf s r).entry ≠ none → exec (.define p tag body) s = .next (answered s p tag body .exists [])) ∧
      ((slotOf s r).entry = none →
        (¬(1 ≤ e.length ∧ e.length ≤ 248 ∧ 25 ≤ e.basePage ∧ e.basePage + (e.length + 8 + 31) / 32 ≤ 2048) →
          exec (.define p tag body) s = .next (answered s p tag body .range [])) ∧
        (1 ≤ e.length → e.length ≤ 248 → 25 ≤ e.basePage → e.basePage + (e.length + 8 + 31) / 32 ≤ 2048 →
          ((∃ (r' : RecNo) (f : LayoutEntry) (page : Nat), (slotOf s r').entry = some f ∧
              e.basePage ≤ page ∧ page < e.basePage + extentPages e.length ∧
              f.basePage ≤ page ∧ page < f.basePage + extentPages f.length) →
            exec (.define p tag body) s = .next (answered s p tag body .overlap [])) ∧
          ((∀ (r' : RecNo) (f : LayoutEntry) (page : Nat), (slotOf s r').entry = some f →
              e.basePage ≤ page → page < e.basePage + extentPages e.length →
              ¬(f.basePage ≤ page ∧ page < f.basePage + extentPages f.length)) →
            (s.rc.warning = true → exec (.define p tag body) s = .next (answered s p tag body .power [])) ∧
            (s.rc.warning = false → s.rc.restartPending = true →
              exec (.define p tag body) s = .next (answered s p tag body .restarting [])) ∧
            (s.rc.warning = false → s.rc.restartPending = false →
              exec (.define p tag body) s = .next { answered s p tag body .queued [] with
                sessions := s.sessions.set p { s.sessions.get p with state := .queued }
                queue := s.queue ++ [⟨p, .layout (.define r e)⟩] }))))

/-- DELETE on the administrative port in READY with an IDLE session, by the rest of the checks of R129 with its own,
RANGE for a body that is not one record number of at most 127 (R181); the one that passes is queued and sets the
record's delete-pending mark. An OPEN COPY of the record that waits at an arbiter is refused IN_USE; one that holds
its tenure is to be refused at its end; every other waiting read stays (R37, R45, R132). -/
def Obligations.DeletesAreQueued : Prop :=
  ∀ (s : State) (p : Port) (tag : Byte), CanServe s p → s.rc.admin = p → (s.sessions.get p).state = .idle →
    (∀ body : List Byte, body.length ≤ 252 → body.length ≠ 1 ∨ (∃ rb : Byte, body = [rb] ∧ 128 ≤ rb.toNat) →
      exec (.delete p tag body) s = .next (answered s p tag body .range [])) ∧
    ∀ r : RecNo,
      ((slotOf s r).entry = none →
        exec (.delete p tag [recByte r]) s = .next (answered s p tag [recByte r] .noRecord [])) ∧
      ((slotOf s r).entry ≠ none →
        ((slotOf s r).deletePending = true ∨ (lockOf s r).holder ≠ none ∨ (lockOf s r).waits ≠ [] ∨
            (∃ q, (s.sessions.get q).state ≠ .idle ∧ (s.sessions.get q).record = some r) →
          exec (.delete p tag [recByte r]) s = .next (answered s p tag [recByte r] .inUse [])) ∧
        ((slotOf s r).deletePending = false → (lockOf s r).holder = none → (lockOf s r).waits = [] →
            (∀ q, (s.sessions.get q).record = some r → (s.sessions.get q).state = .idle) →
          (s.rc.warning = true →
            exec (.delete p tag [recByte r]) s = .next (answered s p tag [recByte r] .power [])) ∧
          (s.rc.warning = false → s.rc.restartPending = true →
            exec (.delete p tag [recByte r]) s = .next (answered s p tag [recByte r] .restarting [])) ∧
          (s.rc.warning = false → s.rc.restartPending = false → s.reads.get p = none →
            ∃ t, exec (.delete p tag [recByte r]) s = .next t ∧
              t = { s with sessions := s.sessions.set p { s.sessions.get p with state := .queued }
                           queue := s.queue ++ [⟨p, .layout (.delete r)⟩]
                           dir := { s.dir with slots := s.dir.slots.set r { slotOf s r with deletePending := true } }
                           ports := t.ports, reads := t.reads, arbiters := t.arbiters } ∧
              t.ports.get p = (answered s p tag [recByte r] .queued []).ports.get p ∧
              (∀ pl, t.arbiters.get pl = { s.arbiters.get pl with waiting := (t.arbiters.get pl).waiting }) ∧
              (∀ pl q, (t.arbiters.get pl).waiting.get q = true ↔ (s.arbiters.get pl).waiting.get q = true ∧
                ¬∃ rd, s.reads.get q = some rd ∧ rd.record = r ∧ rd.kind = .openCopy ∧ rd.phase = .waiting ∧
                  rd.plane = pl) ∧
              ∀ q, q ≠ p →
                ((∀ rd, s.reads.get q = some rd → rd.record = r → rd.kind ≠ .openCopy) →
                  t.reads.get q = s.reads.get q ∧ t.ports.get q = s.ports.get q) ∧
                ∀ rd tag', s.reads.get q = some rd → rd.record = r → rd.kind = .openCopy →
                  (s.ports.get q).inProgress = some tag' →
                  (rd.phase = .waiting →
                    t.reads.get q = none ∧ t.ports.get q = (withResponse s q tag' .inUse []).get q) ∧
                  (rd.phase = .reading →
                    t.reads.get q = some { rd with inUse := true } ∧ t.ports.get q = s.ports.get q))))

/-- RESTART on the administrative port, outside MOUNTING: RESTARTING, and the restart-pending mark is set; sent again it
changes nothing and answers the same; a body is refused RANGE (R140). -/
def Obligations.RestartIsMarked : Prop :=
  ∀ (s : State) (p : Port) (tag : Byte), CanRequest s p → s.rc.admin = p → s.device ≠ .mounting →
    (exec (.restart p tag []) s = .next { answered s p tag [] .restarting [] with
      rc := { s.rc with restartPending := true } }) ∧
    (s.rc.restartPending = true →
      exec (.restart p tag []) s = .next (answered s p tag [] .restarting [])) ∧
    ∀ body : List Byte, body.length ≤ 252 → body ≠ [] →
      exec (.restart p tag body) s = .next (answered s p tag body .range [])

/-! ## The program engine (chapter 4 and 8.4) -/

/-- No entry starts while the engine is busy, the queue empty, the supply warning present, a restart pending or the device
MOUNTING; no RECORD entry starts unless the device is READY; outside READY only a FORMAT does (R64). -/
def Obligations.EngineGate : Prop :=
  ∀ s : State,
    (s.engine.state ≠ .idle ∨ s.queue = [] ∨ s.rc.warning = true ∨ s.rc.restartPending = true ∨
      s.device = .mounting ∨ (s.device ≠ .ready ∧ ∃ e rest, s.queue = e :: rest ∧ e.work ≠ .layout .format)) →
    exec .engineStart s = .next s

/-- The start of a RECORD entry that passes its checks: it leaves the queue, the staged bytes go to the engine buffer
and the staging buffer is emptied, the session is PROGRAMMING, the target copy is the one that is not current, the new
generation the successor, and the engine asks that plane's arbiter for the erase of the header page (R12, R66, R67,
R68). -/
def Obligations.RecordEntriesStart : Prop :=
  ∀ (s : State) (p : Port) (r : RecNo) (cond : Condition) (base : Gen) (rest : List Entry) (e : LayoutEntry) (c : Plane),
    s.engine.state = .idle → s.rc.warning = false → s.rc.restartPending = false → s.device = .ready →
    s.queue = ⟨p, .record r cond base⟩ :: rest → (slotOf s r).entry = some e → e.writeSet.get p = true →
    (e.guarded = true → (lockOf s r).holder = some p) →
    (e.guarded = false → (lockOf s r).holder = none ∨ (lockOf s r).holder = some p) →
    (cond = .matching → base = (slotOf s r).content.generation) →
    ((slotOf s r).content.current = some .p0 ∧ c = .p1 ∨ (slotOf s r).content.current ≠ some .p0 ∧ c = .p0) →
    exec .engineStart s = .next (joinEngine c { s with
      queue := rest
      sessions := s.sessions.set p { s.sessions.get p with
        state := .programming, fill := 0, overrun := false, buffer := emptyBuffer }
      engine := { state := .erase, entry := some ⟨p, .record r cond base⟩, detached := false, target := some c
                  newGen := successor (slotOf s r).content.generation
                  step := some { phase := .erase, k := 1, m := extentPages e.length }, attempt := 1
                  buffer := .data (Table.ofList 248 0 ((s.sessions.get p).buffer.cells.take e.length))
                  basePage := e.basePage, length := e.length } })

/-- A RECORD entry whose start check fails ends at once, by the first that fails: NO_RECORD, NO_ACCESS, NOT_HOLDER or
LOCKED, STALE. The result slot, the session and COMMIT_DONE follow; the record, the array and every other home stay (R67,
R72). -/
def Obligations.RecordStartsFail : Prop :=
  ∀ (s : State) (p : Port) (r : RecNo) (cond : Condition) (base : Gen) (rest : List Entry) (code : ResultCode),
    s.engine.state = .idle → s.rc.warning = false → s.rc.restartPending = false → s.device = .ready →
    s.queue = ⟨p, .record r cond base⟩ :: rest →
    ((slotOf s r).entry = none ∧ code = .noRecord ∨
      ∃ e, (slotOf s r).entry = some e ∧
        (e.writeSet.get p = false ∧ code = .noAccess ∨
         e.writeSet.get p = true ∧
          (e.guarded = true ∧ (lockOf s r).holder ≠ some p ∧ code = .notHolder ∨
           e.guarded = false ∧ (∃ h, (lockOf s r).holder = some h ∧ h ≠ p) ∧ code = .locked ∨
           (e.guarded = true → (lockOf s r).holder = some p) ∧
           (e.guarded = false → (lockOf s r).holder = none ∨ (lockOf s r).holder = some p) ∧
           cond = .matching ∧ base ≠ (slotOf s r).content.generation ∧ code = .stale))) →
    exec .engineStart s = .next { s with
      queue := rest
      sessions := s.sessions.set p Session.reset
      results := s.results.set p (some { record := some r, kind := .record, result := code
                                         generation := (slotOf s r).content.generation })
      flags := s.flags.set p { s.flags.get p with commitDone := true }
      engine := Engine.reset }

/-- The start of a LAYOUT entry: the layout image of the new generation goes to the engine buffer; one that passes its
checks works toward the layout copy that is not current (FORMAT toward copy 0 with generation 1) and asks for its
first page step (R128, R134, R135, R136). One that fails ends at once with its code (R138). -/
def Obligations.LayoutEntriesStart : Prop :=
  ∀ (s : State) (p : Port) (op : LayoutOp) (rest : List Entry),
    s.engine.state = .idle → s.rc.warning = false → s.rc.restartPending = false →
    (s.device = .ready ∨ (op = .format ∧ s.device ≠ .mounting)) → s.queue = ⟨p, .layout op⟩ :: rest →
    (∀ (c : Plane) (g : Gen) (st : EngineStep) (entries : Table 128 (Option LayoutEntry)) (base len : Nat),
      ((op = .format ∧ (s.device = .ready → ∀ r, (slotOf s r).entry = none) ∧ c = .p0 ∧ g = 1 ∧
          st = { phase := .formatFirst, k := 1, m := 25 } ∧ entries = Table.fill 128 none ∧ base = 0 ∧ len = 0) ∨
       (∃ v, s.dir.layout = some v ∧ c = v.current.other ∧ g = successor v.generation ∧
         ((∃ r e, op = .define r e ∧ (slotOf s r).entry = none ∧ overlapsDefined s e = false ∧
             st = { phase := .extentErase .p0, k := 1, m := extentPages e.length } ∧
             entries = (s.dir.slots.map Slot.entry).set r (some e) ∧ base = e.basePage ∧ len = e.length) ∨
          (∃ r, op = .delete r ∧ (slotOf s r).entry ≠ none ∧ st = { phase := .erase, k := 1, m := 25 } ∧
             entries = (s.dir.slots.map Slot.entry).set r none ∧ base = 0 ∧ len = 0) ∨
          (∃ r rs ws gd e, op = .setAccess r rs ws gd ∧ (slotOf s r).entry = some e ∧
             st = { phase := .erase, k := 1, m := 25 } ∧ base = 0 ∧ len = 0 ∧
             entries = (s.dir.slots.map Slot.entry).set r
               (some { e with readSet := rs, writeSet := ws, guarded := gd }))))) →
      exec .engineStart s = .next (askStep st 1 { s with
        queue := rest
        sessions := s.sessions.set p { s.sessions.get p with state := .programming }
        engine := { state := .check, entry := some ⟨p, .layout op⟩, detached := false, target := some c, newGen := g
                    step := none, attempt := 0, basePage := base, length := len
                    buffer := .image (Table.ofList 800 0xFF (layoutImage g entries.cells)) } })) ∧
    ∀ code : ResultCode,
      ((op = .format ∧ s.device = .ready ∧ (∃ r, (slotOf s r).entry ≠ none) ∧ code = .inUse) ∨
       (∃ r e, op = .define r e ∧ (slotOf s r).entry ≠ none ∧ code = .exists) ∨
       (∃ r e, op = .define r e ∧ (slotOf s r).entry = none ∧ overlapsDefined s e = true ∧ code = .overlap) ∨
       (∃ r, op = .delete r ∧ slotOf s r = Slot.undefined ∧ code = .noRecord) ∨
       (∃ r rs ws gd, op = .setAccess r rs ws gd ∧ (slotOf s r).entry = none ∧ code = .noRecord)) →
      exec .engineStart s = .next { s with
        queue := rest
        sessions := s.sessions.set p Session.reset
        results := s.results.set p (some { record := Work.record? (.layout op), kind := Work.kind (.layout op)
                                           result := code, generation := layoutGeneration s })
        flags := s.flags.set p { s.flags.get p with commitDone := true }
        engine := Engine.reset }

/-- The end of an erase attempt: the page of the step keeps every bit or has it at 1, byte 0 reaching 0xFF before any
other byte changes; every other byte of the array stays; the plane is granted on. Where the page is all 0xFF the
engine goes on to the next step at attempt 1; otherwise, below the third attempt, to the same step at the next one
(R20, R69). The erase steps in their order, with plane and page: a DEFINE's extent in plane 0, then in plane 1, then
the layout erase; a FORMAT's layout areas, the one that is not current first; the erase of the target area from its
header page on, then the program (R68, R135, R136). A page outside the array, which no admitted extent has, is the
model's fault (log 8). -/
def Obligations.EraseAttemptsEnd : Prop :=
  (∀ (s : State) (raised : PageBytes) (e : Entry) (st : EngineStep) (pl : Plane) (page : Nat) (x : PageBytes),
    s.engine.entry = some e → s.engine.step = some st → s.engine.state = .erase → phaseState st.phase = .erase →
    pl = stepPlane s st → page = stepPage s st → (s.arbiters.get pl).holder = .engine →
    x = eraseAttempt (readPage s.array pl page) raised →
    (2048 ≤ page → exec (.eraseAttemptDone raised) s = .fault .pageOutsideArray) ∧
    (page < 2048 →
      (∀ st', x = erasedPage → nextStep st = some st' →
        exec (.eraseAttemptDone raised) s =
          .next (askStep st' 1 (endTenure pl { s with array := writePage s.array pl page x }))) ∧
      (x ≠ erasedPage → s.engine.attempt < 3 →
        exec (.eraseAttemptDone raised) s = .next (askStep st (s.engine.attempt + 1)
          (endTenure pl { s with array := writePage s.array pl page x }))) ∧
      nextStep st ≠ none ∧
      (∀ i : Fin 32, x.get i ||| (readPage s.array pl page).get i = x.get i) ∧
      (x.get 0 ≠ 0xFF → ∀ i : Fin 32, i ≠ 0 → x.get i = (readPage s.array pl page).get i) ∧
      (∀ a, a < pageAddress pl page ∨ pageAddress pl page + 32 ≤ a →
        memRead (writePage s.array pl page x) a = memRead s.array a) ∧
      (ArrayOk s → readPage (writePage s.array pl page x) pl page = x))) ∧
  (∀ (k m : Nat),
    nextStep ⟨.extentErase .p0, k, m⟩ = some (if k < m then ⟨.extentErase .p0, k + 1, m⟩ else ⟨.extentErase .p1, 1, m⟩) ∧
    nextStep ⟨.extentErase .p1, k, m⟩ = some (if k < m then ⟨.extentErase .p1, k + 1, m⟩ else ⟨.erase, 1, 25⟩) ∧
    nextStep ⟨.formatFirst, k, m⟩ = some (if k < m then ⟨.formatFirst, k + 1, m⟩ else ⟨.formatSecond, 1, 25⟩) ∧
    nextStep ⟨.formatSecond, k, m⟩ = some (if k < m then ⟨.formatSecond, k + 1, m⟩ else ⟨.program, 1, 25⟩) ∧
    nextStep ⟨.erase, k, m⟩ = some (if k < m then ⟨.erase, k + 1, m⟩ else ⟨.program, 1, m⟩)) ∧
  ∀ (s : State) (j m : Nat),
    (∀ pl, stepPlane s ⟨.extentErase pl, j + 1, m⟩ = pl ∧ stepPage s ⟨.extentErase pl, j + 1, m⟩ = s.engine.basePage + j) ∧
    ((∃ g, s.dir.layout = some ⟨.p0, g⟩) → stepPlane s ⟨.formatFirst, j + 1, m⟩ = .p1 ∧
      stepPlane s ⟨.formatSecond, j + 1, m⟩ = .p0) ∧
    ((¬∃ g, s.dir.layout = some ⟨.p0, g⟩) → stepPlane s ⟨.formatFirst, j + 1, m⟩ = .p0 ∧
      stepPlane s ⟨.formatSecond, j + 1, m⟩ = .p1) ∧
    stepPage s ⟨.formatFirst, j + 1, m⟩ = j ∧ stepPage s ⟨.formatSecond, j + 1, m⟩ = j ∧
    (∀ c, s.engine.target = some c → stepPlane s ⟨.erase, j + 1, m⟩ = c) ∧
    (∀ p r cond g, s.engine.entry = some ⟨p, .record r cond g⟩ →
      stepPage s ⟨.erase, j + 1, m⟩ = s.engine.basePage + j) ∧
    ∀ p op, s.engine.entry = some ⟨p, .layout op⟩ → stepPage s ⟨.erase, j + 1, m⟩ = j

/-- The end of a program attempt: each bit that was to be 0 is 0 or as it was, every other bit as it was, and byte 0
changes only once bytes 1 to 31 hold their AND; every other byte of the array stays; the plane is granted on. Where
the page equals the new content the engine goes on to the next step, while there is one; otherwise, below the third
attempt, to the same step at the next attempt (R21, R69). The program steps in their order, with plane, page and
content: page k of the target area with page k of the image, the header page last; an invalidation step has none after
it (R68, R70, R135, R136). A page outside the array, which no admitted extent has, is the model's fault (log 8). -/
def Obligations.ProgramAttemptsEnd : Prop :=
  (∀ (s : State) (cleared : PageBytes) (e : Entry) (st : EngineStep) (pl : Plane) (page : Nat) (new x : PageBytes),
    s.engine.entry = some e → s.engine.step = some st → s.engine.state = .program → st.phase = .program →
    pl = stepPlane s st → page = stepPage s st → new = stepContent s st → (s.arbiters.get pl).holder = .engine →
    x = programAttempt (readPage s.array pl page) new cleared →
    (2048 ≤ page → exec (.programAttemptDone cleared) s = .fault .pageOutsideArray) ∧
    (page < 2048 →
      (x = new → st.k < st.m →
        exec (.programAttemptDone cleared) s = .next (askStep { st with k := st.k + 1 } 1
          (endTenure pl { s with array := writePage s.array pl page x }))) ∧
      (x ≠ new → s.engine.attempt < 3 →
        exec (.programAttemptDone cleared) s = .next (askStep st (s.engine.attempt + 1)
          (endTenure pl { s with array := writePage s.array pl page x }))) ∧
      (∀ i : Fin 32, x.get i &&& (readPage s.array pl page).get i = x.get i) ∧
      (∀ i : Fin 32, (readPage s.array pl page).get i &&& new.get i &&& x.get i =
        (readPage s.array pl page).get i &&& new.get i) ∧
      (x.get 0 ≠ (readPage s.array pl page).get 0 →
        ∀ i : Fin 32, i ≠ 0 → x.get i = (readPage s.array pl page).get i &&& new.get i) ∧
      (∀ a, a < pageAddress pl page ∨ pageAddress pl page + 32 ≤ a →
        memRead (writePage s.array pl page x) a = memRead s.array a) ∧
      (ArrayOk s → readPage (writePage s.array pl page x) pl page = x))) ∧
  (∀ (k m : Nat),
    nextStep ⟨.program, k, m⟩ = (if k < m then some ⟨.program, k + 1, m⟩ else none) ∧
    nextStep ⟨.invalidate, k, m⟩ = none) ∧
  ∀ (s : State) (c : Plane) (k m : Nat) (i : Fin 32), s.engine.target = some c → 1 ≤ k → k ≤ m →
    stepPlane s ⟨.program, k, m⟩ = c ∧ stepPlane s ⟨.invalidate, k, m⟩ = c ∧
    (∀ p r cond g, s.engine.entry = some ⟨p, .record r cond g⟩ →
      stepPage s ⟨.invalidate, k, m⟩ = s.engine.basePage ∧
      stepPage s ⟨.program, k, m⟩ = s.engine.basePage + (if k = m then 0 else k) ∧
      ∀ b, s.engine.buffer = .data b → (stepContent s ⟨.program, k, m⟩).get i =
        (recordImage r s.engine.length c s.engine.newGen b.cells).getD ((if k = m then 0 else 32 * k) + i.val) 0xFF) ∧
    ∀ p op, s.engine.entry = some ⟨p, .layout op⟩ →
      stepPage s ⟨.program, k, m⟩ = (if k = m then 0 else k) ∧
      ∀ b, s.engine.buffer = .image b →
        (stepContent s ⟨.program, k, m⟩).get i = b.cells.getD ((if k = m then 0 else 32 * k) + i.val) 0xFF

/-- The completion of a RECORD entry, when its header page has passed its verify: the slot is VALID with the target
copy and the new generation; the result slot, the session and COMMIT_DONE of an attached entry; a notice to each
watcher but the entry's port; the engine is idle (R6, R71, R116). The step's tenure ends first (log 21). Then each
read of the record that waits at the other plane leaves it and waits at the target copy's, or, where that plane is
free, the rotation grants it to one of them; every other read stays as it is, and a pointer moves only at a grant
(R36). -/
def Obligations.RecordEntriesComplete : Prop :=
  ∀ (s : State) (cleared : PageBytes) (p : Port) (r : RecNo) (cond : Condition) (base : Gen) (st : EngineStep) (c : Plane)
    (page : Nat) (new : PageBytes),
    s.engine.entry = some ⟨p, .record r cond base⟩ → s.engine.step = some st → s.engine.state = .program →
    st.phase = .program → st.k = st.m → s.engine.target = some c → page = s.engine.basePage → page < 2048 →
    (s.arbiters.get c).holder = .engine → new = stepContent s st →
    programAttempt (readPage s.array c page) new cleared = new →
    ∃ t, exec (.programAttemptDone cleared) s = .next t ∧
      t = { s with
        array := writePage s.array c page new
        engine := Engine.reset
        dir := { s.dir with slots := s.dir.slots.set r { slotOf s r with content := .valid c s.engine.newGen } }
        results := if s.engine.detached then s.results else s.results.set p
          (some { record := some r, kind := .record, result := .ok, generation := s.engine.newGen })
        sessions := if s.engine.detached then s.sessions else s.sessions.set p Session.reset
        flags := t.flags, notices := t.notices, arbiters := t.arbiters, reads := t.reads } ∧
      (let u := endTenure c { s with array := writePage s.array c page new }
       let moves := fun (q : Port) (rd : Read) =>
         u.reads.get q = some rd ∧ rd.record = r ∧ rd.phase = .waiting ∧ rd.plane ≠ c
       (∀ q, (¬∃ rd, moves q rd) → t.reads.get q = u.reads.get q) ∧
       t.arbiters.get c.other = { u.arbiters.get c.other with waiting := (t.arbiters.get c.other).waiting } ∧
       (∀ q, (t.arbiters.get c.other).waiting.get q = true ↔
         (u.arbiters.get c.other).waiting.get q = true ∧ ¬∃ rd, moves q rd) ∧
       ((¬∃ q rd, moves q rd) → t.arbiters.get c = u.arbiters.get c) ∧
       ((u.arbiters.get c).holder ≠ .none →
         (∀ q rd, moves q rd → t.reads.get q = some { rd with plane := c }) ∧
         t.arbiters.get c = { u.arbiters.get c with waiting := (t.arbiters.get c).waiting } ∧
         ∀ q, (t.arbiters.get c).waiting.get q = true ↔
           (u.arbiters.get c).waiting.get q = true ∨ ∃ rd, moves q rd) ∧
       ∀ w rd0, (u.arbiters.get c).holder = .none → moves w rd0 →
         (∀ q rd, moves q rd → q ≠ w →
           (portIndex w + 3 - portIndex (u.arbiters.get c).pointer) % 4 <
             (portIndex q + 3 - portIndex (u.arbiters.get c).pointer) % 4) →
         t.reads.get w = some { rd0 with plane := c, phase := .reading } ∧
         (∀ q rd, moves q rd → q ≠ w → t.reads.get q = some { rd with plane := c }) ∧
         t.arbiters.get c = { u.arbiters.get c with
           holder := .read w, pointer := w, waiting := (t.arbiters.get c).waiting } ∧
         ∀ q, (t.arbiters.get c).waiting.get q = true ↔ q ≠ w ∧ ∃ rd, moves q rd) ∧
      ∀ q,
        let old := s.notices.get q
        let posted := (slotOf s r).watch.get q = true ∧ q ≠ p
        let room := (∃ n ∈ old, n.record = r) ∨ old.length < 8
        (posted → (∃ n ∈ old, n.record = r) →
          t.notices.get q = old.map fun n => if n.record = r then ⟨r, s.engine.newGen, p⟩ else n) ∧
        (posted → (¬∃ n ∈ old, n.record = r) → old.length < 8 →
          t.notices.get q = old ++ [⟨r, s.engine.newGen, p⟩]) ∧
        (¬(posted ∧ room) → t.notices.get q = old) ∧
        t.flags.get q = { s.flags.get q with
          commitDone := (s.flags.get q).commitDone || (decide (q = p) && !s.engine.detached)
          noticePending := (t.flags.get q).noticePending
          noticeOverflow := (t.flags.get q).noticeOverflow } ∧
        ((t.flags.get q).noticePending = true ↔ (s.flags.get q).noticePending = true ∨ (posted ∧ room)) ∧
        ((t.flags.get q).noticeOverflow = true ↔ (s.flags.get q).noticeOverflow = true ∨ (posted ∧ ¬room))

/-- The completion of a LAYOUT entry, when page 0 of the target copy has passed its verify: the step's tenure ends
(log 21); the layout fields become the target copy and the new generation; the slots change as the operation says;
result slot, session and COMMIT_DONE of an attached entry; LAYOUT_CHANGED on all four ports; the engine is idle.
DELETE empties every queue of the record's notice and ends every read of it that waits, READ RECORD refused NO_RECORD
(an OPEN COPY, which no run has waiting then, IN_USE: the model's choice, log 19).
SET ACCESS drops watchers outside the read set with their notice, lock waiters and a holder outside the write set with
their reports and flags, and hands the lock on. Nothing else changes: no report, lock flag, port, read or arbiter
where the operation has no such effect (R5, R7, R8, R37, R98, R109, R119, R128, R137). -/
def Obligations.LayoutEntriesComplete : Prop :=
  ∀ (s : State) (cleared : PageBytes) (p : Port) (op : LayoutOp) (st : EngineStep) (c : Plane) (new : PageBytes),
    s.engine.entry = some ⟨p, .layout op⟩ → s.engine.step = some st → s.engine.state = .program →
    st.phase = .program → st.k = st.m → s.engine.target = some c →
    (s.arbiters.get c).holder = .engine → new = stepContent s st →
    programAttempt (readPage s.array c 0) new cleared = new →
    let u := endTenure c { s with array := writePage s.array c 0 new }
    ∃ t, exec (.programAttemptDone cleared) s = .next t ∧
      t = { s with
        array := u.array
        engine := Engine.reset
        dir := t.dir, device := t.device, locks := t.locks, reports := t.reports, ports := t.ports
        results := if s.engine.detached then s.results else s.results.set p
          (some { record := Work.record? (.layout op), kind := Work.kind (.layout op), result := .ok
                  generation := s.engine.newGen })
        sessions := if s.engine.detached then s.sessions else s.sessions.set p Session.reset
        flags := t.flags, notices := t.notices, arbiters := t.arbiters, reads := t.reads } ∧
      t.dir.layout = some ⟨c, s.engine.newGen⟩ ∧
      t.device = (if op = .format then .ready else s.device) ∧
      (∀ q, (t.flags.get q).layoutChanged = true ∧
        (t.flags.get q).commitDone = ((s.flags.get q).commitDone || (decide (q = p) && !s.engine.detached)) ∧
        (t.flags.get q).supplyWarn = (s.flags.get q).supplyWarn ∧
        (t.flags.get q).resetSeen = (s.flags.get q).resetSeen ∧
        (t.flags.get q).noticeOverflow = (s.flags.get q).noticeOverflow) ∧
      (∀ r, op ≠ .format → Work.record? (.layout op) ≠ some r → slotOf t r = slotOf s r ∧ lockOf t r = lockOf s r) ∧
      ((∀ r, op ≠ .delete r) → t.ports = s.ports ∧ t.reads = u.reads ∧ t.arbiters = u.arbiters) ∧
      ((∀ r rs ws g, op ≠ .setAccess r rs ws g) → t.locks = s.locks ∧ t.reports = s.reports ∧
        ∀ q, (t.flags.get q).lockTimeout = (s.flags.get q).lockTimeout ∧
          (t.flags.get q).leaseLost = (s.flags.get q).leaseLost ∧
          (t.flags.get q).lockGranted = (s.flags.get q).lockGranted) ∧
      ((op = .format ∨ ∃ r e, op = .define r e) → t.notices = s.notices ∧
        ∀ q, (t.flags.get q).noticePending = (s.flags.get q).noticePending) ∧
      (op = .format → t.dir.slots = Table.fill 128 Slot.undefined) ∧
      (∀ r e, op = .define r e →
        slotOf t r = { entry := some e, content := .empty, watch := PortSet.empty, deletePending := false }) ∧
      (∀ r, op = .delete r → slotOf t r = Slot.undefined ∧
        (∀ q, t.notices.get q = ((s.notices.get q).filter fun n => n.record ≠ r) ∧
          ((t.flags.get q).noticePending = true ↔ t.notices.get q ≠ [])) ∧
        (∀ pl, t.arbiters.get pl = { u.arbiters.get pl with waiting := (t.arbiters.get pl).waiting }) ∧
        (∀ pl q, (t.arbiters.get pl).waiting.get q = true ↔ (u.arbiters.get pl).waiting.get q = true ∧
          ¬∃ rd, u.reads.get q = some rd ∧ rd.record = r ∧ rd.phase = .waiting ∧ rd.plane = pl) ∧
        ∀ q,
          ((∀ rd, u.reads.get q = some rd → rd.record = r → rd.phase ≠ .waiting) →
            t.reads.get q = u.reads.get q ∧ t.ports.get q = s.ports.get q) ∧
          ∀ rd tag, u.reads.get q = some rd → rd.record = r → rd.phase = .waiting →
            (s.ports.get q).inProgress = some tag →
            t.reads.get q = none ∧
            (∀ o n, rd.kind = .record o n → t.ports.get q = (withResponse s q tag .noRecord []).get q) ∧
            (rd.kind = .openCopy → t.ports.get q = (withResponse s q tag .inUse []).get q)) ∧
      ∀ r rs ws g, op = .setAccess r rs ws g →
        (∀ e, (slotOf s r).entry = some e →
          slotOf t r = { slotOf s r with
            entry := some { e with readSet := rs, writeSet := ws, guarded := g }
            watch := (slotOf t r).watch }) ∧
        (∀ q, (slotOf t r).watch.get q = ((slotOf s r).watch.get q && rs.get q)) ∧
        (∀ q, if (slotOf s r).watch.get q = true ∧ rs.get q = false
          then t.notices.get q = ((s.notices.get q).filter fun n => n.record ≠ r) ∧
            ((t.flags.get q).noticePending = true ↔ t.notices.get q ≠ [])
          else t.notices.get q = s.notices.get q ∧
            (t.flags.get q).noticePending = (s.flags.get q).noticePending) ∧
        let stay := (lockOf s r).waits.filter fun w => ws.get w.port
        ((∀ h, (lockOf s r).holder = some h → ws.get h = true) →
          lockOf t r = { lockOf s r with waits := stay }) ∧
        (∀ h, (lockOf s r).holder = some h → ws.get h = false →
          (stay = [] → lockOf t r = Lock.free) ∧
          ∀ w rest, stay = w :: rest → lockOf t r = ⟨some w.port, w.lease, false, rest⟩) ∧
        ∀ q,
          let out := (∃ w ∈ (lockOf s r).waits, w.port = q) ∧ ws.get q = false
          let lost := (lockOf s r).holder = some q ∧ ws.get q = false
          let given := (∃ h, (lockOf s r).holder = some h ∧ ws.get h = false) ∧ ∃ w rest, stay = w :: rest ∧ w.port = q
          ((t.reports.get q).timedOut = if out then some r else (s.reports.get q).timedOut) ∧
          ((t.reports.get q).lost = if lost then some r else (s.reports.get q).lost) ∧
          (given → (t.reports.get q).granted = some r) ∧ (¬given → (t.reports.get q).granted = (s.reports.get q).granted) ∧
          ((t.flags.get q).lockTimeout = true ↔ (s.flags.get q).lockTimeout = true ∨ out) ∧
          ((t.flags.get q).leaseLost = true ↔ (s.flags.get q).leaseLost = true ∨ lost) ∧
          ((t.flags.get q).lockGranted = true ↔ (s.flags.get q).lockGranted = true ∨ given)

/-- The third failure on a page: a record entry that failed at its header page, in either phase, and every layout
entry end with FAULT; a record entry that failed past its header erase first asks for the invalidation of the header
page (R70, R138). A FAULT leaves the directory and the layout as they are but for a DELETE's mark, and hands the end
to an attached entry's port. -/
def Obligations.ThirdFailuresEnd : Prop :=
  ∀ (s : State) (i : Instr) (mask : PageBytes) (e : Entry) (st : EngineStep) (pl : Plane) (page : Nat) (x : PageBytes),
    s.engine.entry = some e → s.engine.step = some st → s.engine.state = phaseState st.phase →
    pl = stepPlane s st → page = stepPage s st → page < 2048 → (s.arbiters.get pl).holder = .engine →
    s.engine.attempt = 3 →
    (i = .eraseAttemptDone mask ∧ phaseState st.phase = .erase ∧ x = eraseAttempt (readPage s.array pl page) mask ∧
        x ≠ erasedPage ∨
     i = .programAttemptDone mask ∧ st.phase = .program ∧
        x = programAttempt (readPage s.array pl page) (stepContent s st) mask ∧ x ≠ stepContent s st) →
    let u := endTenure pl { s with array := writePage s.array pl page x }
    (∀ r c g, e.work = .record r c g →
      (st.phase = .erase ∧ st.k ≠ 1 ∨ st.phase = .program ∧ st.k ≠ st.m) →
      exec i s = .next (askStep { phase := .invalidate, k := 1, m := st.m } 1 u)) ∧
    (∀ r c g, e.work = .record r c g →
      (st.phase = .erase ∧ st.k = 1 ∨ st.phase = .program ∧ st.k = st.m) →
      exec i s = .next { u with
        engine := Engine.reset
        results := if s.engine.detached then s.results else s.results.set e.port
          (some { record := some r, kind := .record, result := .fault, generation := (slotOf s r).content.generation })
        sessions := if s.engine.detached then s.sessions else s.sessions.set e.port Session.reset
        flags := if s.engine.detached then s.flags
          else s.flags.set e.port { s.flags.get e.port with commitDone := true } }) ∧
    (∀ op, e.work = .layout op →
      exec i s = .next { u with
        engine := Engine.reset
        dir := match op with
          | .delete r => { s.dir with slots := s.dir.slots.set r { slotOf s r with deletePending := false } }
          | _ => s.dir
        results := if s.engine.detached then s.results else s.results.set e.port
          (some { record := Work.record? (.layout op), kind := Work.kind (.layout op), result := .fault
                  generation := layoutGeneration s })
        sessions := if s.engine.detached then s.sessions else s.sessions.set e.port Session.reset
        flags := if s.engine.detached then s.flags
          else s.flags.set e.port { s.flags.get e.port with commitDone := true } })

/-- The end of the invalidation step: whatever its verify, the record entry ends with FAULT; the header page was
programmed with byte 0 at 0x00 and the others left, no other byte of the array changed; on an erased header page it
leaves INVALID, or NO_IMAGE where it cleared no bit (R29, R70, R72). A page outside the array, which no admitted
extent has, is the model's fault (log 8). -/
def Obligations.InvalidationEndsTheEntry : Prop :=
  ∀ (s : State) (cleared : PageBytes) (p : Port) (r : RecNo) (cond : Condition) (base : Gen) (st : EngineStep) (c : Plane)
    (page : Nat) (x : PageBytes),
    s.engine.entry = some ⟨p, .record r cond base⟩ → s.engine.step = some st → s.engine.state = .program →
    st.phase = .invalidate → s.engine.target = some c → page = s.engine.basePage →
    (s.arbiters.get c).holder = .engine →
    x = programAttempt (readPage s.array c page) (erasedPage.set 0 0) cleared →
    (2048 ≤ page → exec (.invalidationStep cleared) s = .fault .pageOutsideArray) ∧
    (page < 2048 →
      exec (.invalidationStep cleared) s = .next { endTenure c { s with array := writePage s.array c page x } with
        engine := Engine.reset
        results := if s.engine.detached then s.results else s.results.set p
          (some { record := some r, kind := .record, result := .fault, generation := (slotOf s r).content.generation })
        sessions := if s.engine.detached then s.sessions else s.sessions.set p Session.reset
        flags := if s.engine.detached then s.flags
          else s.flags.set p { s.flags.get p with commitDone := true } }) ∧
    (∀ i : Fin 32, i ≠ 0 → x.get i = (readPage s.array c page).get i) ∧
    (readPage s.array c page = erasedPage → ∀ (len : Nat) (rest : List Byte),
      classifyRecord r len c (x.cells ++ rest) = if x.get 0 = 0xFF then .noImage else .invalid)

/-! ## Supply, clear lines, resets (chapter 10) -/

/-- The supply warning: raised, it sets SUPPLY_WARN on all four ports in READY, UNFORMATTED and LAYOUT_DAMAGED, is held in
MOUNTING, and under a reset only makes the condition present; removed, it changes no flag. Either is taken only from the
other condition (R158, R159, R160). -/
def Obligations.SupplyWarningMoves : Prop :=
  ∀ s : State,
    (s.rc.warning = false → resetInForce s = false → s.device ≠ .mounting →
      exec .supplyWarningRaised s = .next { s with
        rc := { s.rc with warning := true }
        flags := ⟨{ s.flags.a with supplyWarn := true }, { s.flags.b with supplyWarn := true },
                  { s.flags.c with supplyWarn := true }, { s.flags.d with supplyWarn := true }⟩ }) ∧
    (s.rc.warning = false → resetInForce s = false → s.device = .mounting →
      exec .supplyWarningRaised s = .next { s with rc := { s.rc with warning := true, held := true } }) ∧
    (s.rc.warning = false → resetInForce s = true →
      exec .supplyWarningRaised s = .next { s with rc := { s.rc with warning := true } }) ∧
    (s.rc.warning = true → exec .supplyWarningRaised s = .next s ∧
      exec .supplyWarningRemoved s = .next { s with rc := { s.rc with warning := false } }) ∧
    (s.rc.warning = false → exec .supplyWarningRemoved s = .next s)

/-- A port clear, taken when the line goes low outside a reset: the port's transport state, session, result slot,
report, notices, flags but RESET_SEEN, mask and memberships return to their reset values, its queued entry goes, its
entry in the engine is detached, it holds no lock and waits on none. The array, the persistent parts, contents,
rotation pointers, device state and reset control stay, and so does what the other ports hold but for a lock handed
on, with its flag and its report (R163, R164, R17, R57, R75, R88, R97, R110, R125). A frame in progress is ignored to
its end. The rise of the line has no other effect than that the port takes frames again, from the next fall of its chip
select, whose level it finds (log 17). A line already low takes no further clear, and one already high does not rise
(log 1). -/
def Obligations.PortClears : Prop :=
  ∀ (s : State) (p : Port),
    (s.clearLow.get p = false → resetInForce s = false →
      ∃ t, exec (.portClear p) s = .next t ∧
        t = { s with
          clearLow := s.clearLow.set p true
          ports := s.ports.set p { PortIf.reset with receiver := if s.csLow.get p then .ignoring else .idle }
          sessions := s.sessions.set p Session.reset
          results := s.results.set p none
          masks := s.masks.set p Flags.full
          notices := s.notices.set p []
          reads := s.reads.set p none
          engine := { s.engine with
            detached := s.engine.detached || (match s.engine.entry with | some e => decide (e.port = p) | none => false) }
          queue := if (s.sessions.get p).state = .queued then s.queue.filter fun e => e.port ≠ p else s.queue
          dir := t.dir, arbiters := t.arbiters, locks := t.locks, reports := t.reports, flags := t.flags } ∧
        t.dir.layout = s.dir.layout ∧
        (∀ r, (slotOf t r).entry = (slotOf s r).entry ∧ (slotOf t r).content = (slotOf s r).content ∧
          (slotOf t r).watch = (slotOf s r).watch.set p false ∧
          (slotOf t r).deletePending = ((slotOf s r).deletePending &&
            !(decide ((s.sessions.get p).state = .queued) &&
              decide (s.queue.find? (fun e => e.port = p) = some ⟨p, .layout (.delete r)⟩)))) ∧
        (s.reads.get p = none → t.arbiters = s.arbiters) ∧
        (∀ rd, s.reads.get p = some rd → rd.phase = .waiting → t.arbiters = s.arbiters.set rd.plane
          { s.arbiters.get rd.plane with waiting := (s.arbiters.get rd.plane).waiting.set p false }) ∧
        (∀ rd, s.reads.get p = some rd → rd.phase = .reading → t.arbiters = s.arbiters.set rd.plane
          { s.arbiters.get rd.plane with holder := .discarded p (decide (rd.kind = .openCopy)) }) ∧
        t.flags.get p = { Flags.clear with resetSeen := (s.flags.get p).resetSeen } ∧
        t.reports.get p = LockReport.reset ∧
        (∀ q, q ≠ p → t.flags.get q = { s.flags.get q with lockGranted := (t.flags.get q).lockGranted } ∧
          t.reports.get q = { s.reports.get q with granted := (t.reports.get q).granted } ∧
          let given := fun (r : RecNo) => (lockOf s r).holder = some p ∧
            ∃ w ws, (lockOf s r).waits.filter (fun w => w.port ≠ p) = w :: ws ∧ w.port = q
          ((t.flags.get q).lockGranted = true ↔ (s.flags.get q).lockGranted = true ∨ ∃ r, given r) ∧
          ((¬∃ r, given r) → (t.reports.get q).granted = (s.reports.get q).granted) ∧
          ((∃ r, given r) → ∃ r, given r ∧ (t.reports.get q).granted = some r)) ∧
        (∀ r, waitsOn (lockOf t r) p = false ∧
          ((lockOf s r).holder ≠ some p →
            lockOf t r = { lockOf s r with waits := (lockOf s r).waits.filter fun w => w.port ≠ p }) ∧
          ((lockOf s r).holder = some p →
            ((lockOf s r).waits.filter (fun w => w.port ≠ p) = [] → lockOf t r = Lock.free) ∧
            ∀ w ws, (lockOf s r).waits.filter (fun w => w.port ≠ p) = w :: ws →
              lockOf t r = ⟨some w.port, w.lease, false, ws⟩))) ∧
    (s.clearLow.get p = false → resetInForce s = true →
      exec (.portClear p) s = .next { s with clearLow := s.clearLow.set p true }) ∧
    (s.clearLow.get p = true → exec (.portClear p) s = .next s) ∧
    ∀ low : Bool,
      (s.clearLow.get p = true →
        exec (.portClearRelease p low) s = .next { s with
          clearLow := s.clearLow.set p false
          csLow := s.csLow.set p low
          ports := s.ports.set p { s.ports.get p with receiver := if low then .ignoring else .idle } }) ∧
      (s.clearLow.get p = false → exec (.portClearRelease p low) s = .next s)

/-- The taking of a device reset, of any of the four causes: every volatile home returns to its reset value, and the
clear lines, the chip selects (log 4), the waiting commands, the reset cause and the administrative port stay. The
warning is present from a power-on or supply reset and otherwise as it was; the held warning and restart pending are
clear; the source is in force. The array is what the cut-off step left of it (R142, R157, R161). RESTART is taken only
with a restart pending, the engine IDLE and no reset in force (R162), RSTN only while it is high (log 10, log 12). -/
def Obligations.DeviceResetsAreTaken : Prop :=
  ∀ (s : State) (cut : PageBytes) (src : ResetSource) (i : Instr),
    (src = .powerOn ∧ i = .powerOnReset cut ∨ src = .supply ∧ i = .supplyReset cut ∨
     src = .pin ∧ i = .pinReset cut ∧ s.rc.sources.pin = false ∨
     src = .restart ∧ i = .restartReset cut ∧ s.rc.restartPending = true ∧ s.engine.state = .idle ∧
       resetInForce s = false) →
    exec i s = .next
      { pending := s.pending
        array := cutStep cut s
        ports := PerPort.all PortIf.reset
        clearLow := s.clearLow
        csLow := s.csLow
        sessions := PerPort.all Session.reset
        dir := { slots := Table.fill 128 Slot.undefined, layout := none }
        queue := []
        engine := Engine.reset
        results := PerPort.all none
        arbiters := ⟨Arbiter.reset, Arbiter.reset⟩
        reads := PerPort.all none
        locks := Table.fill 128 Lock.free
        reports := PerPort.all LockReport.reset
        notices := PerPort.all []
        flags := PerPort.all Flags.clear
        masks := PerPort.all Flags.full
        mount := .idle
        device := .mounting
        rc := { warning := s.rc.warning || decide (src = .powerOn ∨ src = .supply)
                held := false
                sources :=
                  { supply := if src = .powerOn then some .powerOn else if src = .supply then some .supply
                      else s.rc.sources.supply
                    pin := s.rc.sources.pin || decide (src = .pin)
                    restart := s.rc.sources.restart || decide (src = .restart) }
                cause := s.rc.cause
                latest := src
                admin := s.rc.admin
                restartPending := false } } ∧
    ((s.rc.sources.pin = true → exec (.pinReset cut) s = .next s) ∧
     (s.rc.restartPending = false ∨ s.engine.state ≠ .idle ∨ resetInForce s = true →
       exec (.restartReset cut) s = .next s))

/-- What a reset leaves of the array: with no page step under way, all of it; otherwise at most the step's own page
changes. A cut erase leaves the page as it was or with byte 0 at 0xFF; a cut program leaves byte 0 as it was or has
bytes 1 to 31 programmed, clears bits only and none that the new content has at 1; a cut invalidation clears bits of
byte 0 only (R22). -/
def Obligations.ResetsCutOnePage : Prop :=
  ∀ (s : State) (cut : PageBytes),
    ((s.engine.step = none ∨ ∀ pl, (s.arbiters.get pl).holder ≠ .engine) → cutStep cut s = s.array) ∧
    ∀ (st : EngineStep) (pl : Plane) (page : Nat), s.engine.step = some st → pl = stepPlane s st →
      page = stepPage s st → page < 2048 →
      (∀ a, a < pageAddress pl page ∨ pageAddress pl page + 32 ≤ a → memRead (cutStep cut s) a = memRead s.array a) ∧
      (ArrayOk s →
        (phaseState st.phase = .erase →
          readPage (cutStep cut s) pl page = readPage s.array pl page ∨
          (readPage (cutStep cut s) pl page).get 0 = 0xFF) ∧
        (phaseState st.phase = .erase → ∀ i : Fin 32,
          (readPage (cutStep cut s) pl page).get i ||| (readPage s.array pl page).get i =
            (readPage (cutStep cut s) pl page).get i) ∧
        (st.phase = .program → ∀ i : Fin 32,
          ((readPage (cutStep cut s) pl page).get 0 ≠ (readPage s.array pl page).get 0 → i ≠ 0 →
            (readPage (cutStep cut s) pl page).get i = (readPage s.array pl page).get i &&& (stepContent s st).get i) ∧
          (readPage (cutStep cut s) pl page).get i &&& (readPage s.array pl page).get i =
            (readPage (cutStep cut s) pl page).get i ∧
          (readPage s.array pl page).get i &&& (stepContent s st).get i &&& (readPage (cutStep cut s) pl page).get i =
            (readPage s.array pl page).get i &&& (stepContent s st).get i) ∧
        (st.phase = .invalidate → ∀ i : Fin 32,
          (i ≠ 0 → (readPage (cutStep cut s) pl page).get i = (readPage s.array pl page).get i) ∧
          (readPage (cutStep cut s) pl page).get i &&& (readPage s.array pl page).get i =
            (readPage (cutStep cut s) pl page).get i))

/-- The release, when the one source in force lets go: no source is in force, the cause is the source taken latest,
ADMSEL names the administrative port, a warning present is held (R159, log 22), and a port whose chip select it finds
low (log 17) ignores that frame to its end. A source that is not the last lets go without touching the cause (R127,
R162, R166). A source that is not in force does not let go, the last one in force lets go by the release alone, and a
release with more than one or none in force is not taken (the model's events, log 1). -/
def Obligations.SourcesLetGo : Prop :=
  ∀ (s : State) (straps : BitVec 2) (low : PortSet),
    ((s.rc.sources.supply ≠ none ∧ s.rc.sources.pin = false ∧ s.rc.sources.restart = false ∨
      s.rc.sources.supply = none ∧ s.rc.sources.pin = true ∧ s.rc.sources.restart = false ∨
      s.rc.sources.supply = none ∧ s.rc.sources.pin = false ∧ s.rc.sources.restart = true) →
      ∃ t, exec (.resetRelease straps low) s = .next t ∧
        t = { s with
          ports := t.ports
          csLow := low
          rc := { s.rc with
            sources := Sources.none
            cause := s.rc.latest
            held := s.rc.held || s.rc.warning
            admin := if straps = 0 then .a else if straps = 1 then .b else if straps = 2 then .c else .d } } ∧
        ∀ p, t.ports.get p = { s.ports.get p with receiver := if low.get p then .ignoring else .idle }) ∧
    (¬(s.rc.sources.supply ≠ none ∧ s.rc.sources.pin = false ∧ s.rc.sources.restart = false ∨
      s.rc.sources.supply = none ∧ s.rc.sources.pin = true ∧ s.rc.sources.restart = false ∨
      s.rc.sources.supply = none ∧ s.rc.sources.pin = false ∧ s.rc.sources.restart = true) →
      exec (.resetRelease straps low) s = .next s) ∧
    (∀ (v : SupplySource) (src : ResetSource), s.rc.sources.supply = some v →
      (v = .powerOn ∧ src = .powerOn ∨ v = .supply ∧ src = .supply) →
      s.rc.sources.pin = true ∨ s.rc.sources.restart = true →
      exec (.sourceLetsGo src) s =
        .next { s with rc := { s.rc with sources := { s.rc.sources with supply := none } } }) ∧
    (s.rc.sources.pin = true → s.rc.sources.supply ≠ none ∨ s.rc.sources.restart = true →
      exec (.sourceLetsGo .pin) s = .next { s with rc := { s.rc with sources := { s.rc.sources with pin := false } } }) ∧
    (s.rc.sources.restart = true → s.rc.sources.supply ≠ none ∨ s.rc.sources.pin = true →
      exec (.sourceLetsGo .restart) s =
        .next { s with rc := { s.rc with sources := { s.rc.sources with restart := false } } }) ∧
    (∀ src : ResetSource,
      (src = .powerOn ∧ s.rc.sources.supply ≠ some .powerOn ∨ src = .supply ∧ s.rc.sources.supply ≠ some .supply ∨
       src = .pin ∧ s.rc.sources.pin = false ∨ src = .restart ∧ s.rc.sources.restart = false) ∨
      (s.rc.sources.supply ≠ none ∧ s.rc.sources.pin = false ∧ s.rc.sources.restart = false ∨
       s.rc.sources.supply = none ∧ s.rc.sources.pin = true ∧ s.rc.sources.restart = false ∨
       s.rc.sources.supply = none ∧ s.rc.sources.pin = false ∧ s.rc.sources.restart = true) →
      exec (.sourceLetsGo src) s = .next s)

/-! ## Mount (chapter 9) -/

/-- Mount: it starts after the release with both planes granted and a warning present counted as raised during mount;
the layout copies it then reads give UNFORMATTED, LAYOUT_DAMAGED or a layout whose entries become the persistent
parts; each defined slot is set, in order, from its two stored copies. At the end, in one step, the device state, both
arbiters free with their pointers at D, RESET_SEEN on all four ports, and SUPPLY_WARN where a warning is held (R38,
R145, R147, R149, R150, R151, R159). A slot whose extent passes the array, which no VALID layout has, is the model's
fault (log 8). -/
def Obligations.MountRuns : Prop :=
  ∀ s : State,
    (s.device = .mounting → resetInForce s = false → s.mount = .idle →
      exec .mountStart s = .next { s with
        mount := .layout
        rc := { s.rc with held := s.rc.held || s.rc.warning }
        arbiters := ⟨{ s.arbiters.p0 with holder := .mount }, { s.arbiters.p1 with holder := .mount }⟩ }) ∧
    (s.mount = .layout →
      ∀ k0 k1, classifyLayout (readExtent s.array .p0 0 25) = k0 → classifyLayout (readExtent s.array .p1 0 25) = k1 →
        (k0 = .noImage → k1 = .noImage → exec .mountLayoutSelected s = .next (endMount .unformatted s)) ∧
        ((∀ g es, k0 ≠ .valid g es) → (∀ g es, k1 ≠ .valid g es) → ¬(k0 = .noImage ∧ k1 = .noImage) →
          exec .mountLayoutSelected s = .next (endMount .layoutDamaged s)) ∧
        ∀ (c : Plane) (g : Gen) (es : Table 128 (Option LayoutEntry)),
          ((c = .p0 ∧ k0 = .valid g es ∧ (∀ g' es', k1 = .valid g' es' →
              g = successor g' ∧ g' ≠ successor g ∨ g' ≠ successor g ∧ g'.toNat ≤ g.toNat)) ∨
           (c = .p1 ∧ k1 = .valid g es ∧ (∀ g' es', k0 = .valid g' es' →
              g = successor g' ∨ g' ≠ successor g ∧ g'.toNat < g.toNat))) →
          let t := { s with dir := { slots := es.map fun e => { Slot.undefined with entry := e }
                                     layout := some ⟨c, g⟩ } }
          exec .mountLayoutSelected s =
            .next (if ∀ r, es.get r = none then endMount .ready t else { t with mount := .records 0 })) ∧
    (∀ (r0 r : RecNo) (e : LayoutEntry), s.mount = .records r0 → r0 ≤ r → (slotOf s r).entry = some e →
      (∀ r', r0 ≤ r' → r' < r → (slotOf s r').entry = none) →
      let k := fun pl => classifyRecord r e.length pl (readExtent s.array pl e.basePage (extentPages e.length))
      let t := { s with dir := { s.dir with slots := s.dir.slots.set r { slotOf s r with
        content := selectRecord (k .p0) (k .p1) } } }
      (extentInArray e.basePage (extentPages e.length) = false →
        exec .mountSlotSet s = .fault .pageOutsideArray) ∧
      (extentInArray e.basePage (extentPages e.length) = true → (∀ r', r < r' → (slotOf s r').entry = none) →
        exec .mountSlotSet s = .next (endMount .ready t)) ∧
      (extentInArray e.basePage (extentPages e.length) = true → ∀ r1, r < r1 → (slotOf s r1).entry ≠ none →
        (∀ r', r < r' → r' < r1 → (slotOf s r').entry = none) →
        exec .mountSlotSet s = .next { t with mount := .records r1 })) ∧
    ∀ d : DeviceState,
      endMount d s = { s with
        device := d
        mount := .idle
        arbiters := ⟨Arbiter.reset, Arbiter.reset⟩
        rc := { s.rc with held := false }
        flags :=
          ⟨{ s.flags.a with resetSeen := true, supplyWarn := s.flags.a.supplyWarn || s.rc.held },
           { s.flags.b with resetSeen := true, supplyWarn := s.flags.b.supplyWarn || s.rc.held },
           { s.flags.c with resetSeen := true, supplyWarn := s.flags.c.supplyWarn || s.rc.held },
           { s.flags.d with resetSeen := true, supplyWarn := s.flags.d.supplyWarn || s.rc.held }⟩ }

/-- The two copies of a record as mount selects between them: EMPTY when both are NO_IMAGE, the newer of two VALID
ones by the successor rule, the one VALID copy, DAMAGED otherwise (R10, R149); and the successor of a generation,
which is never 0 and comes after it for every generation but the last, 65535, whose successor is 1. -/
def Obligations.CopiesAreSelected : Prop :=
  selectRecord .noImage .noImage = .empty ∧
  (∀ g k, (∀ h, k ≠ .valid h) → selectRecord (.valid g) k = .valid .p0 g ∧ selectRecord k (.valid g) = .valid .p1 g) ∧
  (∀ k l, (∀ h, k ≠ .valid h) → (∀ h, l ≠ .valid h) → ¬(k = .noImage ∧ l = .noImage) → selectRecord k l = .damaged) ∧
  (∀ g : Gen, g ≠ 0 →
    selectRecord (.valid g) (.valid (successor g)) = .valid .p1 (successor g) ∧
    selectRecord (.valid (successor g)) (.valid g) = .valid .p0 (successor g)) ∧
  (∀ g h : Gen, h ≠ successor g → g ≠ successor h →
    selectRecord (.valid g) (.valid h) = if g.toNat < h.toNat then .valid .p1 h else .valid .p0 g) ∧
  ∀ g : Gen, successor g ≠ 0 ∧
    (g.toNat < 65535 → (successor g).toNat = g.toNat + 1) ∧ (g = 65535 → successor g = 1)

/-- How mount classifies what it reads. A record copy: VALID with g exactly when marker, record number, length, copy
number and check code are right and g, its generation, is not 0; NO_IMAGE exactly when header bytes 0 to 7 are 0xFF;
INVALID otherwise. A layout copy: VALID exactly when marker, format number and check code are right, the generation is
not 0, each entry is all zero or has legal fields, and no two extents overlap; NO_IMAGE exactly when header bytes 0 to
5 are 0xFF; INVALID otherwise (R29, R30). And the image the engine writes is the one mount reads back: VALID with its
generation and its data or entries, 0xFF to the end of a record's last page (R25 to R28). -/
def Obligations.ImagesReadBack : Prop :=
  (∀ (r : RecNo) (length : Nat) (c : Plane) (image : List Byte),
     let b := fun (i : Nat) => image.getD i 0xFF
     (∀ g, classifyRecord r length c image = .valid g ↔
       b 0 = 0x3C ∧ b 1 = recByte r ∧ b 2 = natByte length ∧ b 3 = (if c = .p0 then 0 else 1) ∧
       g = genOfBytes (b 4) (b 5) ∧ g ≠ 0 ∧
       genOfBytes (b 6) (b 7) = crc16 (image.take 6 ++ (image.drop 8).take length)) ∧
     (classifyRecord r length c image = .noImage ↔ ∀ i, i < 8 → b i = 0xFF)) ∧
  (∀ (image : List Byte), image.length = 800 →
     let b := fun (i : Nat) => image.getD i 0xFF
     (∀ (g : Gen) (entries : Table 128 (Option LayoutEntry)), classifyLayout image = .valid g entries ↔
       b 0 = 0x5A ∧ b 1 = 0x01 ∧ g = genOfBytes (b 2) (b 3) ∧ g ≠ 0 ∧
       genOfBytes (b 4) (b 5) = crc16 (image.take 4 ++ image.drop 32) ∧
       (∀ r : RecNo,
         let x := fun (i : Nat) => b (32 + 6 * r.val + i)
         (entries.get r = none ∧ ∀ i, i < 6 → x i = 0) ∨
         ∃ e, entries.get r = some e ∧
           x 0 = (if e.guarded then 3 else 1) ∧ e.length = (x 1).toNat ∧ e.basePage = (genOfBytes (x 2) (x 3)).toNat ∧
           x 4 = portSetByte e.readSet ∧ x 5 = portSetByte e.writeSet ∧
           1 ≤ e.length ∧ e.length ≤ 248 ∧ 25 ≤ e.basePage ∧ e.basePage + (e.length + 8 + 31) / 32 ≤ 2048) ∧
       ∀ r r', r ≠ r' → entriesOverlap (entries.get r) (entries.get r') = false) ∧
     (classifyLayout image = .noImage ↔ ∀ i, i < 6 → b i = 0xFF)) ∧
  (∀ (r : RecNo) (length : Nat) (c : Plane) (g : Gen) (data : List Byte),
     1 ≤ length → length ≤ 248 → data.length = length → g ≠ 0 →
     (recordImage r length c g data).length = 32 * extentPages length ∧
     classifyRecord r length c (recordImage r length c g data) = .valid g ∧
     imageData (recordImage r length c g data) 0 length = data ∧
     (∀ o n, o + n ≤ length → imageData (recordImage r length c g data) o n = (data.drop o).take n) ∧
     (recordImage r length c g data).drop (8 + length) = List.replicate (32 * extentPages length - 8 - length) 0xFF) ∧
  (∀ (g : Gen) (entries : Table 128 (Option LayoutEntry)), g ≠ 0 →
     (∀ r e, entries.get r = some e → placementOk e.length e.basePage = true) →
     (∀ r r', r ≠ r' → entriesOverlap (entries.get r) (entries.get r') = false) →
     (layoutImage g entries.cells).length = 800 ∧ classifyLayout (layoutImage g entries.cells) = .valid g entries)

/-! ## Invariants -/

/-- The state right after reset has every invariant below, and the values of R17, R39, R63, R83, R122, R128, R143 and
R145. -/
def Obligations.ResetHoldsTheInvariants : Prop :=
  ArrayOk State.reset ∧ TransportOk State.reset ∧ NoticesOk State.reset ∧ LocksOk State.reset ∧ QueueOk State.reset ∧
  ReadsOk State.reset ∧ StagingOk State.reset ∧ DirectoryInv State.reset ∧ PlacesOk State.reset ∧ ImagesOk State.reset ∧
  ProgressOk State.reset ∧ BufferOk State.reset ∧ WatchOk State.reset ∧ RightsOk State.reset ∧ PendingOk State.reset ∧
  HeaderOk State.reset ∧ OtherCopyOk State.reset ∧ LayoutOk State.reset ∧ LayoutCopyOk State.reset ∧
  State.reset.device = .mounting ∧ State.reset.mount = .idle ∧ State.reset.dir.layout = none ∧
  (∀ r, slotOf State.reset r = Slot.undefined ∧ lockOf State.reset r = Lock.free) ∧
  (∀ p, State.reset.sessions.get p = Session.reset ∧ State.reset.masks.get p = Flags.full ∧
    State.reset.flags.get p = Flags.clear) ∧
  State.reset.engine = Engine.reset ∧ State.reset.pending = []

/-- Every step keeps the array in its canonical form (log 3), and the transport state: never a response and a request in
progress at one port, a response due only for the request in progress, the receiver IDLE exactly while chip select is high
outside a reset, and RECEIVING only on a port that takes frames (R166, R167, R171, R179). -/
def Obligations.ArrayAndTransportStayOk : Prop :=
  ∀ s s', step s = .next s' → (ArrayOk s → ArrayOk s') ∧ (TransportOk s → TransportOk s')

/-- Every step keeps the notice queues: at most eight notices, one for a record, NOTICE_PENDING set exactly while the
queue is not empty; and, with the directory in order, every watcher in its record's read set and every queued notice
for a record its port watches (R115, R116, R120). -/
def Obligations.NoticesStayOk : Prop :=
  ∀ s s', step s = .next s' → (NoticesOk s → NoticesOk s') ∧ (DirectoryInv s → WatchOk s → WatchOk s')

/-- Every step keeps the lock table: at most one holder, never on its own wait list, a port on at most one list and at
most once, countdowns of 1 to 255, at most three waiters; and, with the sessions and the directory in order, holders
and waiters in the record's write set, the lock of an undefined record free, and delete pending exactly for the DELETE
entries under way, with no session, holder or waiter on the record and no OPEN COPY of it but one to be refused (R45,
R83, R84, R87, R99, R132). -/
def Obligations.LocksStayOk : Prop :=
  ∀ s s', step s = .next s' →
    (LocksOk s → LocksOk s') ∧
    (LocksOk s → QueueOk s ∧ ReadsOk s ∧ StagingOk s → DirectoryInv s → RightsOk s ∧ PendingOk s →
      RightsOk s' ∧ PendingOk s')

/-- Every step keeps queue, sessions and reads in agreement: at most one entry of a port, exactly while its session is
QUEUED; an attached entry in the engine exactly while its port's session is PROGRAMMING; a read in progress has a
request in progress that is not answered; an OPEN in progress leaves the session IDLE; a staging buffer holds data
only in STAGING and QUEUED; a session that is IDLE or has a layout entry has no record (R39, R40, R44, R53, R54, R59,
R66, R103). -/
def Obligations.SessionsStayOk : Prop :=
  ∀ s s', QueueOk s ∧ ReadsOk s ∧ StagingOk s → step s = .next s' → QueueOk s' ∧ ReadsOk s' ∧ StagingOk s'

/-- Every step keeps the directory: legal places that never overlap, a VALID record's generation from 1, no content in
an undefined slot; the device state and mount in agreement with it, and the engine's entry (R2, R4, R12, R24, R64,
R67, R128, R134, R143). -/
def Obligations.DirectoryStaysOk : Prop :=
  ∀ s s', DirectoryInv s → step s = .next s' → DirectoryInv s'

/-- With the directory in order, every extent that a read or the engine works on stays in the array, and no command faults
(R18, R24); the engine's step stays one of its entry's (R68, R70, R135, R136), and none without an entry (R63). -/
def Obligations.NoPageOutsideTheArray : Prop :=
  ∀ s, DirectoryInv s → PlacesOk s →
    (∀ s', step s = .next s' → PlacesOk s') ∧ (∀ i, exec i s ≠ .fault .pageOutsideArray)

/-- No command, a device reset among them, changes a byte of the current copy of a VALID record: every page step works
on the other copy, on the layout area or on an extent that no defined record has (R4, R12, R22, R24, R106). -/
def Obligations.CurrentCopiesAreUntouched : Prop :=
  ∀ (s t : State) (i : Instr) (r : RecNo) (e : LayoutEntry) (c : Plane) (g : Gen),
    DirectoryInv s → PlacesOk s → exec i s = .next t →
    (slotOf s r).entry = some e → (slotOf s r).content = .valid c g →
    readExtent t.array c e.basePage (extentPages e.length) = readExtent s.array c e.basePage (extentPages e.length)

/-- R4's guarantees, kept by every step: the copy that the directory names current holds a VALID image that carries
the directory's generation; and outside MOUNTING, where mount takes the copies as it finds them, a copy that is not
current is NO_IMAGE, INVALID or a VALID image that carries the predecessor. R128's: the layout current copy is a VALID
layout image with the layout generation whose entries are the persistent parts; while some record is defined every
step keeps it, and with none every step but those of a FORMAT from its second erase phase on; every step that changes
the layout fields, and every completion of a layout entry, leaves it so. -/
def Obligations.CurrentCopiesStayValid : Prop :=
  ∀ s s', ArrayOk s ∧ DirectoryInv s ∧ PlacesOk s ∧ BufferOk s ∧ ProgressOk s ∧ ImagesOk s → step s = .next s' →
    BufferOk s' ∧ ProgressOk s' ∧ ImagesOk s' ∧
    (HeaderOk s → HeaderOk s' ∧ (s.device ≠ .mounting → OtherCopyOk s → OtherCopyOk s')) ∧
    (LayoutOk s → LayoutOk s') ∧
    (LayoutCopyOk s → ¬FormatErases s → LayoutCopyOk s') ∧
    (s'.dir.layout ≠ s.dir.layout ∨ LayoutCompletes s → LayoutCopyOk s')

/-- R11: a record that stays defined keeps its generation at every command but a reset and mount's own, unless a
commit of it completes, which takes it to the successor. -/
def Obligations.GenerationsMoveBySuccessor : Prop :=
  ∀ (s t : State) (i : Instr) (r : RecNo),
    DirectoryInv s → s.device ≠ .mounting → t.device ≠ .mounting → exec i s = .next t →
    (slotOf s r).entry ≠ none → (slotOf t r).entry ≠ none →
    (slotOf t r).content.generation = (slotOf s r).content.generation ∨
    ((slotOf t r).content.generation = successor (slotOf s r).content.generation ∧
      (∃ mask, i = .programAttemptDone mask) ∧ ∃ p c b, s.engine.entry = some ⟨p, .record r c b⟩)
end

