-- ==== Sys2Proof/Laws/State.lean ====
section
/-! SUPPORT. The small lemmas of the containers (tables, one value for each port, one for each plane), and for each
update of State one lemma per field, so that no proof unfolds a record update. -/

namespace Sys2Proof

namespace Table

variable {n : Nat} {α β γ : Type}

@[simp] theorem get_set_self (t : Table n α) (i : Fin n) (v : α) : (t.set i v).get i = v := by
  simp [Table.get, Table.set]

@[simp] theorem get_set_ne (t : Table n α) (i j : Fin n) (v : α) (h : i ≠ j) : (t.set i v).get j = t.get j := by
  simp [Table.get, Table.set, Fin.val_ne_of_ne h]

theorem get_set (t : Table n α) (i j : Fin n) (v : α) : (t.set i v).get j = if i = j then v else t.get j := by
  by_cases h : i = j
  · subst h; simp
  · simp [h]

@[simp] theorem get_fill (v : α) (i : Fin n) : (Table.fill n v).get i = v := by
  simp [Table.get, Table.fill]

@[simp] theorem get_map (f : α → β) (t : Table n α) (i : Fin n) : (t.map f).get i = f (t.get i) := by
  simp [Table.get, Table.map]

@[simp] theorem get_zipWith (f : α → β → γ) (t : Table n α) (u : Table n β) (i : Fin n) :
    (Table.zipWith f t u).get i = f (t.get i) (u.get i) := by
  simp [Table.get, Table.zipWith]

theorem cells_injective {t u : Table n α} (h : t.cells = u.cells) : t = u := by
  cases t; cases u; simp_all

theorem ext_get {t u : Table n α} (h : ∀ i, t.get i = u.get i) : t = u := by
  apply cells_injective
  apply List.ext_getElem
  · rw [t.size, u.size]
  · intro i h1 h2
    have := h ⟨i, by simpa [t.size] using h1⟩
    simpa [Table.get] using this

/-- A member of the table stands at some index. -/
theorem mem_cells_iff (t : Table n α) (x : α) : x ∈ t.cells ↔ ∃ i, t.get i = x := by
  constructor
  · intro h
    obtain ⟨i, hi, rfl⟩ := List.mem_iff_getElem.mp h
    exact ⟨⟨i, by simpa [t.size] using hi⟩, by simp [Table.get]⟩
  · rintro ⟨i, rfl⟩
    simp [Table.get]

end Table

namespace PerPort

variable {α : Type}

@[simp] theorem get_set_self (x : PerPort α) (p : Port) (v : α) : (x.set p v).get p = v := by cases p <;> rfl

@[simp] theorem get_set_ne (x : PerPort α) (p q : Port) (v : α) (h : q ≠ p) : (x.set p v).get q = x.get q := by
  cases p <;> cases q <;> first | rfl | exact absurd rfl h

theorem get_set (x : PerPort α) (p q : Port) (v : α) : (x.set p v).get q = if q = p then v else x.get q := by
  by_cases h : q = p
  · subst h; simp
  · simp [h]

@[simp] theorem set_set (x : PerPort α) (p : Port) (v w : α) : (x.set p v).set p w = x.set p w := by cases p <;> rfl

@[simp] theorem set_get (x : PerPort α) (p : Port) : x.set p (x.get p) = x := by cases p <;> rfl

@[simp] theorem get_all (v : α) (p : Port) : (PerPort.all v).get p = v := by cases p <;> rfl

theorem ext_get {x y : PerPort α} (h : ∀ p, x.get p = y.get p) : x = y := by
  have ha := h .a
  have hb := h .b
  have hc := h .c
  have hd := h .d
  cases x; cases y
  simp_all [PerPort.get]

end PerPort

namespace Machine

namespace PerPlane

variable {α : Type}

@[simp] theorem get_set_self (x : PerPlane α) (pl : Plane) (v : α) : (x.set pl v).get pl = v := by cases pl <;> rfl

@[simp] theorem get_set_ne (x : PerPlane α) (pl ql : Plane) (v : α) (h : ql ≠ pl) :
    (x.set pl v).get ql = x.get ql := by
  cases pl <;> cases ql <;> first | rfl | exact absurd rfl h

theorem get_set (x : PerPlane α) (pl ql : Plane) (v : α) :
    (x.set pl v).get ql = if ql = pl then v else x.get ql := by
  by_cases h : ql = pl
  · subst h; simp
  · simp [h]

@[simp] theorem set_set (x : PerPlane α) (pl : Plane) (v w : α) : (x.set pl v).set pl w = x.set pl w := by
  cases pl <;> rfl

end PerPlane

/-- An effect made on each of four ports, seen through any function it leaves alone. -/
theorem forPorts_keeps {β : Type} (g : State → β) (f : Port → State → State)
    (h : ∀ p s, g (f p s) = g s) (s : State) : g (forPorts f s) = g s := by
  simp [forPorts, h]

/-- A property that the effect keeps on each port, it keeps on all four. -/
theorem forPorts_induct (P : State → Prop) (f : Port → State → State) (h : ∀ p s, P s → P (f p s)) (s : State)
    (hs : P s) : P (forPorts f s) :=
  h _ _ (h _ _ (h _ _ (h _ _ hs)))

theorem slotOf_setSlot (r r' : RecNo) (x : Slot) (s : State) :
    slotOf (setSlot r x s) r' = if r = r' then x else slotOf s r' := by
  simp [slotOf, setSlot, Table.get_set]

@[simp] theorem slotOf_setSlot_self (r : RecNo) (x : Slot) (s : State) : slotOf (setSlot r x s) r = x := by
  simp [slotOf_setSlot]

@[simp] theorem slotOf_setSlot_ne (r r' : RecNo) (x : Slot) (s : State) (h : r ≠ r') :
    slotOf (setSlot r x s) r' = slotOf s r' := by
  simp [slotOf_setSlot, h]

theorem lockOf_setLock (r r' : RecNo) (x : Lock) (s : State) :
    lockOf (setLock r x s) r' = if r = r' then x else lockOf s r' := by
  simp [lockOf, setLock, Table.get_set]

@[simp] theorem lockOf_setLock_self (r : RecNo) (x : Lock) (s : State) : lockOf (setLock r x s) r = x := by
  simp [lockOf_setLock]

@[simp] theorem lockOf_setLock_ne (r r' : RecNo) (x : Lock) (s : State) (h : r ≠ r') :
    lockOf (setLock r x s) r' = lockOf s r' := by
  simp [lockOf_setLock, h]

/-- Every record number is in the list of them. -/
theorem mem_allRecords (r : RecNo) : r ∈ allRecords := by
  simp only [allRecords, List.mem_filterMap, List.mem_range]
  exact ⟨r.val, r.isLt, by simp⟩

/-! ### setPort -/

@[simp] theorem setPort_pending (p : Port) (x : PortIf) (s : State) : (setPort p x s).pending = s.pending := rfl
@[simp] theorem setPort_array (p : Port) (x : PortIf) (s : State) : (setPort p x s).array = s.array := rfl
@[simp] theorem setPort_ports (p : Port) (x : PortIf) (s : State) : (setPort p x s).ports = s.ports.set p x := rfl
@[simp] theorem setPort_clearLow (p : Port) (x : PortIf) (s : State) : (setPort p x s).clearLow = s.clearLow := rfl
@[simp] theorem setPort_csLow (p : Port) (x : PortIf) (s : State) : (setPort p x s).csLow = s.csLow := rfl
@[simp] theorem setPort_sessions (p : Port) (x : PortIf) (s : State) : (setPort p x s).sessions = s.sessions := rfl
@[simp] theorem setPort_dir (p : Port) (x : PortIf) (s : State) : (setPort p x s).dir = s.dir := rfl
@[simp] theorem setPort_queue (p : Port) (x : PortIf) (s : State) : (setPort p x s).queue = s.queue := rfl
@[simp] theorem setPort_engine (p : Port) (x : PortIf) (s : State) : (setPort p x s).engine = s.engine := rfl
@[simp] theorem setPort_results (p : Port) (x : PortIf) (s : State) : (setPort p x s).results = s.results := rfl
@[simp] theorem setPort_arbiters (p : Port) (x : PortIf) (s : State) : (setPort p x s).arbiters = s.arbiters := rfl
@[simp] theorem setPort_reads (p : Port) (x : PortIf) (s : State) : (setPort p x s).reads = s.reads := rfl
@[simp] theorem setPort_locks (p : Port) (x : PortIf) (s : State) : (setPort p x s).locks = s.locks := rfl
@[simp] theorem setPort_reports (p : Port) (x : PortIf) (s : State) : (setPort p x s).reports = s.reports := rfl
@[simp] theorem setPort_notices (p : Port) (x : PortIf) (s : State) : (setPort p x s).notices = s.notices := rfl
@[simp] theorem setPort_flags (p : Port) (x : PortIf) (s : State) : (setPort p x s).flags = s.flags := rfl
@[simp] theorem setPort_masks (p : Port) (x : PortIf) (s : State) : (setPort p x s).masks = s.masks := rfl
@[simp] theorem setPort_mount (p : Port) (x : PortIf) (s : State) : (setPort p x s).mount = s.mount := rfl
@[simp] theorem setPort_device (p : Port) (x : PortIf) (s : State) : (setPort p x s).device = s.device := rfl
@[simp] theorem setPort_rc (p : Port) (x : PortIf) (s : State) : (setPort p x s).rc = s.rc := rfl

/-! ### setCs -/

@[simp] theorem setCs_pending (p : Port) (low : Bool) (s : State) : (setCs p low s).pending = s.pending := rfl
@[simp] theorem setCs_array (p : Port) (low : Bool) (s : State) : (setCs p low s).array = s.array := rfl
@[simp] theorem setCs_ports (p : Port) (low : Bool) (s : State) : (setCs p low s).ports = s.ports := rfl
@[simp] theorem setCs_clearLow (p : Port) (low : Bool) (s : State) : (setCs p low s).clearLow = s.clearLow := rfl
@[simp] theorem setCs_csLow (p : Port) (low : Bool) (s : State) : (setCs p low s).csLow = s.csLow.set p low := rfl
@[simp] theorem setCs_sessions (p : Port) (low : Bool) (s : State) : (setCs p low s).sessions = s.sessions := rfl
@[simp] theorem setCs_dir (p : Port) (low : Bool) (s : State) : (setCs p low s).dir = s.dir := rfl
@[simp] theorem setCs_queue (p : Port) (low : Bool) (s : State) : (setCs p low s).queue = s.queue := rfl
@[simp] theorem setCs_engine (p : Port) (low : Bool) (s : State) : (setCs p low s).engine = s.engine := rfl
@[simp] theorem setCs_results (p : Port) (low : Bool) (s : State) : (setCs p low s).results = s.results := rfl
@[simp] theorem setCs_arbiters (p : Port) (low : Bool) (s : State) : (setCs p low s).arbiters = s.arbiters := rfl
@[simp] theorem setCs_reads (p : Port) (low : Bool) (s : State) : (setCs p low s).reads = s.reads := rfl
@[simp] theorem setCs_locks (p : Port) (low : Bool) (s : State) : (setCs p low s).locks = s.locks := rfl
@[simp] theorem setCs_reports (p : Port) (low : Bool) (s : State) : (setCs p low s).reports = s.reports := rfl
@[simp] theorem setCs_notices (p : Port) (low : Bool) (s : State) : (setCs p low s).notices = s.notices := rfl
@[simp] theorem setCs_flags (p : Port) (low : Bool) (s : State) : (setCs p low s).flags = s.flags := rfl
@[simp] theorem setCs_masks (p : Port) (low : Bool) (s : State) : (setCs p low s).masks = s.masks := rfl
@[simp] theorem setCs_mount (p : Port) (low : Bool) (s : State) : (setCs p low s).mount = s.mount := rfl
@[simp] theorem setCs_device (p : Port) (low : Bool) (s : State) : (setCs p low s).device = s.device := rfl
@[simp] theorem setCs_rc (p : Port) (low : Bool) (s : State) : (setCs p low s).rc = s.rc := rfl

/-! ### setSession -/

@[simp] theorem setSession_pending (p : Port) (x : Session) (s : State) :
    (setSession p x s).pending = s.pending := rfl
@[simp] theorem setSession_array (p : Port) (x : Session) (s : State) : (setSession p x s).array = s.array := rfl
@[simp] theorem setSession_ports (p : Port) (x : Session) (s : State) : (setSession p x s).ports = s.ports := rfl
@[simp] theorem setSession_clearLow (p : Port) (x : Session) (s : State) :
    (setSession p x s).clearLow = s.clearLow := rfl
@[simp] theorem setSession_csLow (p : Port) (x : Session) (s : State) : (setSession p x s).csLow = s.csLow := rfl
@[simp] theorem setSession_sessions (p : Port) (x : Session) (s : State) :
    (setSession p x s).sessions = s.sessions.set p x := rfl
@[simp] theorem setSession_dir (p : Port) (x : Session) (s : State) : (setSession p x s).dir = s.dir := rfl
@[simp] theorem setSession_queue (p : Port) (x : Session) (s : State) : (setSession p x s).queue = s.queue := rfl
@[simp] theorem setSession_engine (p : Port) (x : Session) (s : State) : (setSession p x s).engine = s.engine := rfl
@[simp] theorem setSession_results (p : Port) (x : Session) (s : State) :
    (setSession p x s).results = s.results := rfl
@[simp] theorem setSession_arbiters (p : Port) (x : Session) (s : State) :
    (setSession p x s).arbiters = s.arbiters := rfl
@[simp] theorem setSession_reads (p : Port) (x : Session) (s : State) : (setSession p x s).reads = s.reads := rfl
@[simp] theorem setSession_locks (p : Port) (x : Session) (s : State) : (setSession p x s).locks = s.locks := rfl
@[simp] theorem setSession_reports (p : Port) (x : Session) (s : State) :
    (setSession p x s).reports = s.reports := rfl
@[simp] theorem setSession_notices (p : Port) (x : Session) (s : State) :
    (setSession p x s).notices = s.notices := rfl
@[simp] theorem setSession_flags (p : Port) (x : Session) (s : State) : (setSession p x s).flags = s.flags := rfl
@[simp] theorem setSession_masks (p : Port) (x : Session) (s : State) : (setSession p x s).masks = s.masks := rfl
@[simp] theorem setSession_mount (p : Port) (x : Session) (s : State) : (setSession p x s).mount = s.mount := rfl
@[simp] theorem setSession_device (p : Port) (x : Session) (s : State) : (setSession p x s).device = s.device := rfl
@[simp] theorem setSession_rc (p : Port) (x : Session) (s : State) : (setSession p x s).rc = s.rc := rfl

/-! ### setQueue -/

@[simp] theorem setQueue_pending (x : List Entry) (s : State) : (setQueue x s).pending = s.pending := rfl
@[simp] theorem setQueue_array (x : List Entry) (s : State) : (setQueue x s).array = s.array := rfl
@[simp] theorem setQueue_ports (x : List Entry) (s : State) : (setQueue x s).ports = s.ports := rfl
@[simp] theorem setQueue_clearLow (x : List Entry) (s : State) : (setQueue x s).clearLow = s.clearLow := rfl
@[simp] theorem setQueue_csLow (x : List Entry) (s : State) : (setQueue x s).csLow = s.csLow := rfl
@[simp] theorem setQueue_sessions (x : List Entry) (s : State) : (setQueue x s).sessions = s.sessions := rfl
@[simp] theorem setQueue_dir (x : List Entry) (s : State) : (setQueue x s).dir = s.dir := rfl
@[simp] theorem setQueue_queue (x : List Entry) (s : State) : (setQueue x s).queue = x := rfl
@[simp] theorem setQueue_engine (x : List Entry) (s : State) : (setQueue x s).engine = s.engine := rfl
@[simp] theorem setQueue_results (x : List Entry) (s : State) : (setQueue x s).results = s.results := rfl
@[simp] theorem setQueue_arbiters (x : List Entry) (s : State) : (setQueue x s).arbiters = s.arbiters := rfl
@[simp] theorem setQueue_reads (x : List Entry) (s : State) : (setQueue x s).reads = s.reads := rfl
@[simp] theorem setQueue_locks (x : List Entry) (s : State) : (setQueue x s).locks = s.locks := rfl
@[simp] theorem setQueue_reports (x : List Entry) (s : State) : (setQueue x s).reports = s.reports := rfl
@[simp] theorem setQueue_notices (x : List Entry) (s : State) : (setQueue x s).notices = s.notices := rfl
@[simp] theorem setQueue_flags (x : List Entry) (s : State) : (setQueue x s).flags = s.flags := rfl
@[simp] theorem setQueue_masks (x : List Entry) (s : State) : (setQueue x s).masks = s.masks := rfl
@[simp] theorem setQueue_mount (x : List Entry) (s : State) : (setQueue x s).mount = s.mount := rfl
@[simp] theorem setQueue_device (x : List Entry) (s : State) : (setQueue x s).device = s.device := rfl
@[simp] theorem setQueue_rc (x : List Entry) (s : State) : (setQueue x s).rc = s.rc := rfl

/-! ### setEngine -/

@[simp] theorem setEngine_pending (x : Engine) (s : State) : (setEngine x s).pending = s.pending := rfl
@[simp] theorem setEngine_array (x : Engine) (s : State) : (setEngine x s).array = s.array := rfl
@[simp] theorem setEngine_ports (x : Engine) (s : State) : (setEngine x s).ports = s.ports := rfl
@[simp] theorem setEngine_clearLow (x : Engine) (s : State) : (setEngine x s).clearLow = s.clearLow := rfl
@[simp] theorem setEngine_csLow (x : Engine) (s : State) : (setEngine x s).csLow = s.csLow := rfl
@[simp] theorem setEngine_sessions (x : Engine) (s : State) : (setEngine x s).sessions = s.sessions := rfl
@[simp] theorem setEngine_dir (x : Engine) (s : State) : (setEngine x s).dir = s.dir := rfl
@[simp] theorem setEngine_queue (x : Engine) (s : State) : (setEngine x s).queue = s.queue := rfl
@[simp] theorem setEngine_engine (x : Engine) (s : State) : (setEngine x s).engine = x := rfl
@[simp] theorem setEngine_results (x : Engine) (s : State) : (setEngine x s).results = s.results := rfl
@[simp] theorem setEngine_arbiters (x : Engine) (s : State) : (setEngine x s).arbiters = s.arbiters := rfl
@[simp] theorem setEngine_reads (x : Engine) (s : State) : (setEngine x s).reads = s.reads := rfl
@[simp] theorem setEngine_locks (x : Engine) (s : State) : (setEngine x s).locks = s.locks := rfl
@[simp] theorem setEngine_reports (x : Engine) (s : State) : (setEngine x s).reports = s.reports := rfl
@[simp] theorem setEngine_notices (x : Engine) (s : State) : (setEngine x s).notices = s.notices := rfl
@[simp] theorem setEngine_flags (x : Engine) (s : State) : (setEngine x s).flags = s.flags := rfl
@[simp] theorem setEngine_masks (x : Engine) (s : State) : (setEngine x s).masks = s.masks := rfl
@[simp] theorem setEngine_mount (x : Engine) (s : State) : (setEngine x s).mount = s.mount := rfl
@[simp] theorem setEngine_device (x : Engine) (s : State) : (setEngine x s).device = s.device := rfl
@[simp] theorem setEngine_rc (x : Engine) (s : State) : (setEngine x s).rc = s.rc := rfl

/-! ### setResult -/

@[simp] theorem setResult_pending (p : Port) (x : Option CommitResult) (s : State) :
    (setResult p x s).pending = s.pending := rfl
@[simp] theorem setResult_array (p : Port) (x : Option CommitResult) (s : State) :
    (setResult p x s).array = s.array := rfl
@[simp] theorem setResult_ports (p : Port) (x : Option CommitResult) (s : State) :
    (setResult p x s).ports = s.ports := rfl
@[simp] theorem setResult_clearLow (p : Port) (x : Option CommitResult) (s : State) :
    (setResult p x s).clearLow = s.clearLow := rfl
@[simp] theorem setResult_csLow (p : Port) (x : Option CommitResult) (s : State) :
    (setResult p x s).csLow = s.csLow := rfl
@[simp] theorem setResult_sessions (p : Port) (x : Option CommitResult) (s : State) :
    (setResult p x s).sessions = s.sessions := rfl
@[simp] theorem setResult_dir (p : Port) (x : Option CommitResult) (s : State) : (setResult p x s).dir = s.dir := rfl
@[simp] theorem setResult_queue (p : Port) (x : Option CommitResult) (s : State) :
    (setResult p x s).queue = s.queue := rfl
@[simp] theorem setResult_engine (p : Port) (x : Option CommitResult) (s : State) :
    (setResult p x s).engine = s.engine := rfl
@[simp] theorem setResult_results (p : Port) (x : Option CommitResult) (s : State) :
    (setResult p x s).results = s.results.set p x := rfl
@[simp] theorem setResult_arbiters (p : Port) (x : Option CommitResult) (s : State) :
    (setResult p x s).arbiters = s.arbiters := rfl
@[simp] theorem setResult_reads (p : Port) (x : Option CommitResult) (s : State) :
    (setResult p x s).reads = s.reads := rfl
@[simp] theorem setResult_locks (p : Port) (x : Option CommitResult) (s : State) :
    (setResult p x s).locks = s.locks := rfl
@[simp] theorem setResult_reports (p : Port) (x : Option CommitResult) (s : State) :
    (setResult p x s).reports = s.reports := rfl
@[simp] theorem setResult_notices (p : Port) (x : Option CommitResult) (s : State) :
    (setResult p x s).notices = s.notices := rfl
@[simp] theorem setResult_flags (p : Port) (x : Option CommitResult) (s : State) :
    (setResult p x s).flags = s.flags := rfl
@[simp] theorem setResult_masks (p : Port) (x : Option CommitResult) (s : State) :
    (setResult p x s).masks = s.masks := rfl
@[simp] theorem setResult_mount (p : Port) (x : Option CommitResult) (s : State) :
    (setResult p x s).mount = s.mount := rfl
@[simp] theorem setResult_device (p : Port) (x : Option CommitResult) (s : State) :
    (setResult p x s).device = s.device := rfl
@[simp] theorem setResult_rc (p : Port) (x : Option CommitResult) (s : State) : (setResult p x s).rc = s.rc := rfl

/-! ### setArbiter -/

@[simp] theorem setArbiter_pending (pl : Plane) (x : Arbiter) (s : State) :
    (setArbiter pl x s).pending = s.pending := rfl
@[simp] theorem setArbiter_array (pl : Plane) (x : Arbiter) (s : State) : (setArbiter pl x s).array = s.array := rfl
@[simp] theorem setArbiter_ports (pl : Plane) (x : Arbiter) (s : State) : (setArbiter pl x s).ports = s.ports := rfl
@[simp] theorem setArbiter_clearLow (pl : Plane) (x : Arbiter) (s : State) :
    (setArbiter pl x s).clearLow = s.clearLow := rfl
@[simp] theorem setArbiter_csLow (pl : Plane) (x : Arbiter) (s : State) : (setArbiter pl x s).csLow = s.csLow := rfl
@[simp] theorem setArbiter_sessions (pl : Plane) (x : Arbiter) (s : State) :
    (setArbiter pl x s).sessions = s.sessions := rfl
@[simp] theorem setArbiter_dir (pl : Plane) (x : Arbiter) (s : State) : (setArbiter pl x s).dir = s.dir := rfl
@[simp] theorem setArbiter_queue (pl : Plane) (x : Arbiter) (s : State) : (setArbiter pl x s).queue = s.queue := rfl
@[simp] theorem setArbiter_engine (pl : Plane) (x : Arbiter) (s : State) :
    (setArbiter pl x s).engine = s.engine := rfl
@[simp] theorem setArbiter_results (pl : Plane) (x : Arbiter) (s : State) :
    (setArbiter pl x s).results = s.results := rfl
@[simp] theorem setArbiter_arbiters (pl : Plane) (x : Arbiter) (s : State) :
    (setArbiter pl x s).arbiters = s.arbiters.set pl x := rfl
@[simp] theorem setArbiter_reads (pl : Plane) (x : Arbiter) (s : State) : (setArbiter pl x s).reads = s.reads := rfl
@[simp] theorem setArbiter_locks (pl : Plane) (x : Arbiter) (s : State) : (setArbiter pl x s).locks = s.locks := rfl
@[simp] theorem setArbiter_reports (pl : Plane) (x : Arbiter) (s : State) :
    (setArbiter pl x s).reports = s.reports := rfl
@[simp] theorem setArbiter_notices (pl : Plane) (x : Arbiter) (s : State) :
    (setArbiter pl x s).notices = s.notices := rfl
@[simp] theorem setArbiter_flags (pl : Plane) (x : Arbiter) (s : State) : (setArbiter pl x s).flags = s.flags := rfl
@[simp] theorem setArbiter_masks (pl : Plane) (x : Arbiter) (s : State) : (setArbiter pl x s).masks = s.masks := rfl
@[simp] theorem setArbiter_mount (pl : Plane) (x : Arbiter) (s : State) : (setArbiter pl x s).mount = s.mount := rfl
@[simp] theorem setArbiter_device (pl : Plane) (x : Arbiter) (s : State) :
    (setArbiter pl x s).device = s.device := rfl
@[simp] theorem setArbiter_rc (pl : Plane) (x : Arbiter) (s : State) : (setArbiter pl x s).rc = s.rc := rfl

/-! ### setRead -/

@[simp] theorem setRead_pending (p : Port) (x : Option Read) (s : State) : (setRead p x s).pending = s.pending := rfl
@[simp] theorem setRead_array (p : Port) (x : Option Read) (s : State) : (setRead p x s).array = s.array := rfl
@[simp] theorem setRead_ports (p : Port) (x : Option Read) (s : State) : (setRead p x s).ports = s.ports := rfl
@[simp] theorem setRead_clearLow (p : Port) (x : Option Read) (s : State) :
    (setRead p x s).clearLow = s.clearLow := rfl
@[simp] theorem setRead_csLow (p : Port) (x : Option Read) (s : State) : (setRead p x s).csLow = s.csLow := rfl
@[simp] theorem setRead_sessions (p : Port) (x : Option Read) (s : State) :
    (setRead p x s).sessions = s.sessions := rfl
@[simp] theorem setRead_dir (p : Port) (x : Option Read) (s : State) : (setRead p x s).dir = s.dir := rfl
@[simp] theorem setRead_queue (p : Port) (x : Option Read) (s : State) : (setRead p x s).queue = s.queue := rfl
@[simp] theorem setRead_engine (p : Port) (x : Option Read) (s : State) : (setRead p x s).engine = s.engine := rfl
@[simp] theorem setRead_results (p : Port) (x : Option Read) (s : State) : (setRead p x s).results = s.results := rfl
@[simp] theorem setRead_arbiters (p : Port) (x : Option Read) (s : State) :
    (setRead p x s).arbiters = s.arbiters := rfl
@[simp] theorem setRead_reads (p : Port) (x : Option Read) (s : State) :
    (setRead p x s).reads = s.reads.set p x := rfl
@[simp] theorem setRead_locks (p : Port) (x : Option Read) (s : State) : (setRead p x s).locks = s.locks := rfl
@[simp] theorem setRead_reports (p : Port) (x : Option Read) (s : State) : (setRead p x s).reports = s.reports := rfl
@[simp] theorem setRead_notices (p : Port) (x : Option Read) (s : State) : (setRead p x s).notices = s.notices := rfl
@[simp] theorem setRead_flags (p : Port) (x : Option Read) (s : State) : (setRead p x s).flags = s.flags := rfl
@[simp] theorem setRead_masks (p : Port) (x : Option Read) (s : State) : (setRead p x s).masks = s.masks := rfl
@[simp] theorem setRead_mount (p : Port) (x : Option Read) (s : State) : (setRead p x s).mount = s.mount := rfl
@[simp] theorem setRead_device (p : Port) (x : Option Read) (s : State) : (setRead p x s).device = s.device := rfl
@[simp] theorem setRead_rc (p : Port) (x : Option Read) (s : State) : (setRead p x s).rc = s.rc := rfl

/-! ### setLock -/

@[simp] theorem setLock_pending (r : RecNo) (x : Lock) (s : State) : (setLock r x s).pending = s.pending := rfl
@[simp] theorem setLock_array (r : RecNo) (x : Lock) (s : State) : (setLock r x s).array = s.array := rfl
@[simp] theorem setLock_ports (r : RecNo) (x : Lock) (s : State) : (setLock r x s).ports = s.ports := rfl
@[simp] theorem setLock_clearLow (r : RecNo) (x : Lock) (s : State) : (setLock r x s).clearLow = s.clearLow := rfl
@[simp] theorem setLock_csLow (r : RecNo) (x : Lock) (s : State) : (setLock r x s).csLow = s.csLow := rfl
@[simp] theorem setLock_sessions (r : RecNo) (x : Lock) (s : State) : (setLock r x s).sessions = s.sessions := rfl
@[simp] theorem setLock_dir (r : RecNo) (x : Lock) (s : State) : (setLock r x s).dir = s.dir := rfl
@[simp] theorem setLock_queue (r : RecNo) (x : Lock) (s : State) : (setLock r x s).queue = s.queue := rfl
@[simp] theorem setLock_engine (r : RecNo) (x : Lock) (s : State) : (setLock r x s).engine = s.engine := rfl
@[simp] theorem setLock_results (r : RecNo) (x : Lock) (s : State) : (setLock r x s).results = s.results := rfl
@[simp] theorem setLock_arbiters (r : RecNo) (x : Lock) (s : State) : (setLock r x s).arbiters = s.arbiters := rfl
@[simp] theorem setLock_reads (r : RecNo) (x : Lock) (s : State) : (setLock r x s).reads = s.reads := rfl
@[simp] theorem setLock_locks (r : RecNo) (x : Lock) (s : State) : (setLock r x s).locks = s.locks.set r x := rfl
@[simp] theorem setLock_reports (r : RecNo) (x : Lock) (s : State) : (setLock r x s).reports = s.reports := rfl
@[simp] theorem setLock_notices (r : RecNo) (x : Lock) (s : State) : (setLock r x s).notices = s.notices := rfl
@[simp] theorem setLock_flags (r : RecNo) (x : Lock) (s : State) : (setLock r x s).flags = s.flags := rfl
@[simp] theorem setLock_masks (r : RecNo) (x : Lock) (s : State) : (setLock r x s).masks = s.masks := rfl
@[simp] theorem setLock_mount (r : RecNo) (x : Lock) (s : State) : (setLock r x s).mount = s.mount := rfl
@[simp] theorem setLock_device (r : RecNo) (x : Lock) (s : State) : (setLock r x s).device = s.device := rfl
@[simp] theorem setLock_rc (r : RecNo) (x : Lock) (s : State) : (setLock r x s).rc = s.rc := rfl

/-! ### setReport -/

@[simp] theorem setReport_pending (p : Port) (x : LockReport) (s : State) :
    (setReport p x s).pending = s.pending := rfl
@[simp] theorem setReport_array (p : Port) (x : LockReport) (s : State) : (setReport p x s).array = s.array := rfl
@[simp] theorem setReport_ports (p : Port) (x : LockReport) (s : State) : (setReport p x s).ports = s.ports := rfl
@[simp] theorem setReport_clearLow (p : Port) (x : LockReport) (s : State) :
    (setReport p x s).clearLow = s.clearLow := rfl
@[simp] theorem setReport_csLow (p : Port) (x : LockReport) (s : State) : (setReport p x s).csLow = s.csLow := rfl
@[simp] theorem setReport_sessions (p : Port) (x : LockReport) (s : State) :
    (setReport p x s).sessions = s.sessions := rfl
@[simp] theorem setReport_dir (p : Port) (x : LockReport) (s : State) : (setReport p x s).dir = s.dir := rfl
@[simp] theorem setReport_queue (p : Port) (x : LockReport) (s : State) : (setReport p x s).queue = s.queue := rfl
@[simp] theorem setReport_engine (p : Port) (x : LockReport) (s : State) : (setReport p x s).engine = s.engine := rfl
@[simp] theorem setReport_results (p : Port) (x : LockReport) (s : State) :
    (setReport p x s).results = s.results := rfl
@[simp] theorem setReport_arbiters (p : Port) (x : LockReport) (s : State) :
    (setReport p x s).arbiters = s.arbiters := rfl
@[simp] theorem setReport_reads (p : Port) (x : LockReport) (s : State) : (setReport p x s).reads = s.reads := rfl
@[simp] theorem setReport_locks (p : Port) (x : LockReport) (s : State) : (setReport p x s).locks = s.locks := rfl
@[simp] theorem setReport_reports (p : Port) (x : LockReport) (s : State) :
    (setReport p x s).reports = s.reports.set p x := rfl
@[simp] theorem setReport_notices (p : Port) (x : LockReport) (s : State) :
    (setReport p x s).notices = s.notices := rfl
@[simp] theorem setReport_flags (p : Port) (x : LockReport) (s : State) : (setReport p x s).flags = s.flags := rfl
@[simp] theorem setReport_masks (p : Port) (x : LockReport) (s : State) : (setReport p x s).masks = s.masks := rfl
@[simp] theorem setReport_mount (p : Port) (x : LockReport) (s : State) : (setReport p x s).mount = s.mount := rfl
@[simp] theorem setReport_device (p : Port) (x : LockReport) (s : State) : (setReport p x s).device = s.device := rfl
@[simp] theorem setReport_rc (p : Port) (x : LockReport) (s : State) : (setReport p x s).rc = s.rc := rfl

/-! ### setFlags -/

@[simp] theorem setFlags_pending (p : Port) (x : Flags) (s : State) : (setFlags p x s).pending = s.pending := rfl
@[simp] theorem setFlags_array (p : Port) (x : Flags) (s : State) : (setFlags p x s).array = s.array := rfl
@[simp] theorem setFlags_ports (p : Port) (x : Flags) (s : State) : (setFlags p x s).ports = s.ports := rfl
@[simp] theorem setFlags_clearLow (p : Port) (x : Flags) (s : State) : (setFlags p x s).clearLow = s.clearLow := rfl
@[simp] theorem setFlags_csLow (p : Port) (x : Flags) (s : State) : (setFlags p x s).csLow = s.csLow := rfl
@[simp] theorem setFlags_sessions (p : Port) (x : Flags) (s : State) : (setFlags p x s).sessions = s.sessions := rfl
@[simp] theorem setFlags_dir (p : Port) (x : Flags) (s : State) : (setFlags p x s).dir = s.dir := rfl
@[simp] theorem setFlags_queue (p : Port) (x : Flags) (s : State) : (setFlags p x s).queue = s.queue := rfl
@[simp] theorem setFlags_engine (p : Port) (x : Flags) (s : State) : (setFlags p x s).engine = s.engine := rfl
@[simp] theorem setFlags_results (p : Port) (x : Flags) (s : State) : (setFlags p x s).results = s.results := rfl
@[simp] theorem setFlags_arbiters (p : Port) (x : Flags) (s : State) : (setFlags p x s).arbiters = s.arbiters := rfl
@[simp] theorem setFlags_reads (p : Port) (x : Flags) (s : State) : (setFlags p x s).reads = s.reads := rfl
@[simp] theorem setFlags_locks (p : Port) (x : Flags) (s : State) : (setFlags p x s).locks = s.locks := rfl
@[simp] theorem setFlags_reports (p : Port) (x : Flags) (s : State) : (setFlags p x s).reports = s.reports := rfl
@[simp] theorem setFlags_notices (p : Port) (x : Flags) (s : State) : (setFlags p x s).notices = s.notices := rfl
@[simp] theorem setFlags_flags (p : Port) (x : Flags) (s : State) : (setFlags p x s).flags = s.flags.set p x := rfl
@[simp] theorem setFlags_masks (p : Port) (x : Flags) (s : State) : (setFlags p x s).masks = s.masks := rfl
@[simp] theorem setFlags_mount (p : Port) (x : Flags) (s : State) : (setFlags p x s).mount = s.mount := rfl
@[simp] theorem setFlags_device (p : Port) (x : Flags) (s : State) : (setFlags p x s).device = s.device := rfl
@[simp] theorem setFlags_rc (p : Port) (x : Flags) (s : State) : (setFlags p x s).rc = s.rc := rfl

/-! ### setMask -/

@[simp] theorem setMask_pending (p : Port) (x : Flags) (s : State) : (setMask p x s).pending = s.pending := rfl
@[simp] theorem setMask_array (p : Port) (x : Flags) (s : State) : (setMask p x s).array = s.array := rfl
@[simp] theorem setMask_ports (p : Port) (x : Flags) (s : State) : (setMask p x s).ports = s.ports := rfl
@[simp] theorem setMask_clearLow (p : Port) (x : Flags) (s : State) : (setMask p x s).clearLow = s.clearLow := rfl
@[simp] theorem setMask_csLow (p : Port) (x : Flags) (s : State) : (setMask p x s).csLow = s.csLow := rfl
@[simp] theorem setMask_sessions (p : Port) (x : Flags) (s : State) : (setMask p x s).sessions = s.sessions := rfl
@[simp] theorem setMask_dir (p : Port) (x : Flags) (s : State) : (setMask p x s).dir = s.dir := rfl
@[simp] theorem setMask_queue (p : Port) (x : Flags) (s : State) : (setMask p x s).queue = s.queue := rfl
@[simp] theorem setMask_engine (p : Port) (x : Flags) (s : State) : (setMask p x s).engine = s.engine := rfl
@[simp] theorem setMask_results (p : Port) (x : Flags) (s : State) : (setMask p x s).results = s.results := rfl
@[simp] theorem setMask_arbiters (p : Port) (x : Flags) (s : State) : (setMask p x s).arbiters = s.arbiters := rfl
@[simp] theorem setMask_reads (p : Port) (x : Flags) (s : State) : (setMask p x s).reads = s.reads := rfl
@[simp] theorem setMask_locks (p : Port) (x : Flags) (s : State) : (setMask p x s).locks = s.locks := rfl
@[simp] theorem setMask_reports (p : Port) (x : Flags) (s : State) : (setMask p x s).reports = s.reports := rfl
@[simp] theorem setMask_notices (p : Port) (x : Flags) (s : State) : (setMask p x s).notices = s.notices := rfl
@[simp] theorem setMask_flags (p : Port) (x : Flags) (s : State) : (setMask p x s).flags = s.flags := rfl
@[simp] theorem setMask_masks (p : Port) (x : Flags) (s : State) : (setMask p x s).masks = s.masks.set p x := rfl
@[simp] theorem setMask_mount (p : Port) (x : Flags) (s : State) : (setMask p x s).mount = s.mount := rfl
@[simp] theorem setMask_device (p : Port) (x : Flags) (s : State) : (setMask p x s).device = s.device := rfl
@[simp] theorem setMask_rc (p : Port) (x : Flags) (s : State) : (setMask p x s).rc = s.rc := rfl

/-! ### setMount -/

@[simp] theorem setMount_pending (x : MountPhase) (s : State) : (setMount x s).pending = s.pending := rfl
@[simp] theorem setMount_array (x : MountPhase) (s : State) : (setMount x s).array = s.array := rfl
@[simp] theorem setMount_ports (x : MountPhase) (s : State) : (setMount x s).ports = s.ports := rfl
@[simp] theorem setMount_clearLow (x : MountPhase) (s : State) : (setMount x s).clearLow = s.clearLow := rfl
@[simp] theorem setMount_csLow (x : MountPhase) (s : State) : (setMount x s).csLow = s.csLow := rfl
@[simp] theorem setMount_sessions (x : MountPhase) (s : State) : (setMount x s).sessions = s.sessions := rfl
@[simp] theorem setMount_dir (x : MountPhase) (s : State) : (setMount x s).dir = s.dir := rfl
@[simp] theorem setMount_queue (x : MountPhase) (s : State) : (setMount x s).queue = s.queue := rfl
@[simp] theorem setMount_engine (x : MountPhase) (s : State) : (setMount x s).engine = s.engine := rfl
@[simp] theorem setMount_results (x : MountPhase) (s : State) : (setMount x s).results = s.results := rfl
@[simp] theorem setMount_arbiters (x : MountPhase) (s : State) : (setMount x s).arbiters = s.arbiters := rfl
@[simp] theorem setMount_reads (x : MountPhase) (s : State) : (setMount x s).reads = s.reads := rfl
@[simp] theorem setMount_locks (x : MountPhase) (s : State) : (setMount x s).locks = s.locks := rfl
@[simp] theorem setMount_reports (x : MountPhase) (s : State) : (setMount x s).reports = s.reports := rfl
@[simp] theorem setMount_notices (x : MountPhase) (s : State) : (setMount x s).notices = s.notices := rfl
@[simp] theorem setMount_flags (x : MountPhase) (s : State) : (setMount x s).flags = s.flags := rfl
@[simp] theorem setMount_masks (x : MountPhase) (s : State) : (setMount x s).masks = s.masks := rfl
@[simp] theorem setMount_mount (x : MountPhase) (s : State) : (setMount x s).mount = x := rfl
@[simp] theorem setMount_device (x : MountPhase) (s : State) : (setMount x s).device = s.device := rfl
@[simp] theorem setMount_rc (x : MountPhase) (s : State) : (setMount x s).rc = s.rc := rfl

/-! ### setDevice -/

@[simp] theorem setDevice_pending (x : DeviceState) (s : State) : (setDevice x s).pending = s.pending := rfl
@[simp] theorem setDevice_array (x : DeviceState) (s : State) : (setDevice x s).array = s.array := rfl
@[simp] theorem setDevice_ports (x : DeviceState) (s : State) : (setDevice x s).ports = s.ports := rfl
@[simp] theorem setDevice_clearLow (x : DeviceState) (s : State) : (setDevice x s).clearLow = s.clearLow := rfl
@[simp] theorem setDevice_csLow (x : DeviceState) (s : State) : (setDevice x s).csLow = s.csLow := rfl
@[simp] theorem setDevice_sessions (x : DeviceState) (s : State) : (setDevice x s).sessions = s.sessions := rfl
@[simp] theorem setDevice_dir (x : DeviceState) (s : State) : (setDevice x s).dir = s.dir := rfl
@[simp] theorem setDevice_queue (x : DeviceState) (s : State) : (setDevice x s).queue = s.queue := rfl
@[simp] theorem setDevice_engine (x : DeviceState) (s : State) : (setDevice x s).engine = s.engine := rfl
@[simp] theorem setDevice_results (x : DeviceState) (s : State) : (setDevice x s).results = s.results := rfl
@[simp] theorem setDevice_arbiters (x : DeviceState) (s : State) : (setDevice x s).arbiters = s.arbiters := rfl
@[simp] theorem setDevice_reads (x : DeviceState) (s : State) : (setDevice x s).reads = s.reads := rfl
@[simp] theorem setDevice_locks (x : DeviceState) (s : State) : (setDevice x s).locks = s.locks := rfl
@[simp] theorem setDevice_reports (x : DeviceState) (s : State) : (setDevice x s).reports = s.reports := rfl
@[simp] theorem setDevice_notices (x : DeviceState) (s : State) : (setDevice x s).notices = s.notices := rfl
@[simp] theorem setDevice_flags (x : DeviceState) (s : State) : (setDevice x s).flags = s.flags := rfl
@[simp] theorem setDevice_masks (x : DeviceState) (s : State) : (setDevice x s).masks = s.masks := rfl
@[simp] theorem setDevice_mount (x : DeviceState) (s : State) : (setDevice x s).mount = s.mount := rfl
@[simp] theorem setDevice_device (x : DeviceState) (s : State) : (setDevice x s).device = x := rfl
@[simp] theorem setDevice_rc (x : DeviceState) (s : State) : (setDevice x s).rc = s.rc := rfl

/-! ### setRc -/

@[simp] theorem setRc_pending (x : ResetControl) (s : State) : (setRc x s).pending = s.pending := rfl
@[simp] theorem setRc_array (x : ResetControl) (s : State) : (setRc x s).array = s.array := rfl
@[simp] theorem setRc_ports (x : ResetControl) (s : State) : (setRc x s).ports = s.ports := rfl
@[simp] theorem setRc_clearLow (x : ResetControl) (s : State) : (setRc x s).clearLow = s.clearLow := rfl
@[simp] theorem setRc_csLow (x : ResetControl) (s : State) : (setRc x s).csLow = s.csLow := rfl
@[simp] theorem setRc_sessions (x : ResetControl) (s : State) : (setRc x s).sessions = s.sessions := rfl
@[simp] theorem setRc_dir (x : ResetControl) (s : State) : (setRc x s).dir = s.dir := rfl
@[simp] theorem setRc_queue (x : ResetControl) (s : State) : (setRc x s).queue = s.queue := rfl
@[simp] theorem setRc_engine (x : ResetControl) (s : State) : (setRc x s).engine = s.engine := rfl
@[simp] theorem setRc_results (x : ResetControl) (s : State) : (setRc x s).results = s.results := rfl
@[simp] theorem setRc_arbiters (x : ResetControl) (s : State) : (setRc x s).arbiters = s.arbiters := rfl
@[simp] theorem setRc_reads (x : ResetControl) (s : State) : (setRc x s).reads = s.reads := rfl
@[simp] theorem setRc_locks (x : ResetControl) (s : State) : (setRc x s).locks = s.locks := rfl
@[simp] theorem setRc_reports (x : ResetControl) (s : State) : (setRc x s).reports = s.reports := rfl
@[simp] theorem setRc_notices (x : ResetControl) (s : State) : (setRc x s).notices = s.notices := rfl
@[simp] theorem setRc_flags (x : ResetControl) (s : State) : (setRc x s).flags = s.flags := rfl
@[simp] theorem setRc_masks (x : ResetControl) (s : State) : (setRc x s).masks = s.masks := rfl
@[simp] theorem setRc_mount (x : ResetControl) (s : State) : (setRc x s).mount = s.mount := rfl
@[simp] theorem setRc_device (x : ResetControl) (s : State) : (setRc x s).device = s.device := rfl
@[simp] theorem setRc_rc (x : ResetControl) (s : State) : (setRc x s).rc = x := rfl

/-! ### setArray -/

@[simp] theorem setArray_pending (x : Mem) (s : State) : (setArray x s).pending = s.pending := rfl
@[simp] theorem setArray_array (x : Mem) (s : State) : (setArray x s).array = x := rfl
@[simp] theorem setArray_ports (x : Mem) (s : State) : (setArray x s).ports = s.ports := rfl
@[simp] theorem setArray_clearLow (x : Mem) (s : State) : (setArray x s).clearLow = s.clearLow := rfl
@[simp] theorem setArray_csLow (x : Mem) (s : State) : (setArray x s).csLow = s.csLow := rfl
@[simp] theorem setArray_sessions (x : Mem) (s : State) : (setArray x s).sessions = s.sessions := rfl
@[simp] theorem setArray_dir (x : Mem) (s : State) : (setArray x s).dir = s.dir := rfl
@[simp] theorem setArray_queue (x : Mem) (s : State) : (setArray x s).queue = s.queue := rfl
@[simp] theorem setArray_engine (x : Mem) (s : State) : (setArray x s).engine = s.engine := rfl
@[simp] theorem setArray_results (x : Mem) (s : State) : (setArray x s).results = s.results := rfl
@[simp] theorem setArray_arbiters (x : Mem) (s : State) : (setArray x s).arbiters = s.arbiters := rfl
@[simp] theorem setArray_reads (x : Mem) (s : State) : (setArray x s).reads = s.reads := rfl
@[simp] theorem setArray_locks (x : Mem) (s : State) : (setArray x s).locks = s.locks := rfl
@[simp] theorem setArray_reports (x : Mem) (s : State) : (setArray x s).reports = s.reports := rfl
@[simp] theorem setArray_notices (x : Mem) (s : State) : (setArray x s).notices = s.notices := rfl
@[simp] theorem setArray_flags (x : Mem) (s : State) : (setArray x s).flags = s.flags := rfl
@[simp] theorem setArray_masks (x : Mem) (s : State) : (setArray x s).masks = s.masks := rfl
@[simp] theorem setArray_mount (x : Mem) (s : State) : (setArray x s).mount = s.mount := rfl
@[simp] theorem setArray_device (x : Mem) (s : State) : (setArray x s).device = s.device := rfl
@[simp] theorem setArray_rc (x : Mem) (s : State) : (setArray x s).rc = s.rc := rfl

/-! ### setSlot -/

@[simp] theorem setSlot_pending (r : RecNo) (x : Slot) (s : State) : (setSlot r x s).pending = s.pending := rfl
@[simp] theorem setSlot_array (r : RecNo) (x : Slot) (s : State) : (setSlot r x s).array = s.array := rfl
@[simp] theorem setSlot_ports (r : RecNo) (x : Slot) (s : State) : (setSlot r x s).ports = s.ports := rfl
@[simp] theorem setSlot_clearLow (r : RecNo) (x : Slot) (s : State) : (setSlot r x s).clearLow = s.clearLow := rfl
@[simp] theorem setSlot_csLow (r : RecNo) (x : Slot) (s : State) : (setSlot r x s).csLow = s.csLow := rfl
@[simp] theorem setSlot_sessions (r : RecNo) (x : Slot) (s : State) : (setSlot r x s).sessions = s.sessions := rfl
@[simp] theorem setSlot_dir (r : RecNo) (x : Slot) (s : State) :
    (setSlot r x s).dir = { s.dir with slots := s.dir.slots.set r x } := rfl
@[simp] theorem setSlot_queue (r : RecNo) (x : Slot) (s : State) : (setSlot r x s).queue = s.queue := rfl
@[simp] theorem setSlot_engine (r : RecNo) (x : Slot) (s : State) : (setSlot r x s).engine = s.engine := rfl
@[simp] theorem setSlot_results (r : RecNo) (x : Slot) (s : State) : (setSlot r x s).results = s.results := rfl
@[simp] theorem setSlot_arbiters (r : RecNo) (x : Slot) (s : State) : (setSlot r x s).arbiters = s.arbiters := rfl
@[simp] theorem setSlot_reads (r : RecNo) (x : Slot) (s : State) : (setSlot r x s).reads = s.reads := rfl
@[simp] theorem setSlot_locks (r : RecNo) (x : Slot) (s : State) : (setSlot r x s).locks = s.locks := rfl
@[simp] theorem setSlot_reports (r : RecNo) (x : Slot) (s : State) : (setSlot r x s).reports = s.reports := rfl
@[simp] theorem setSlot_notices (r : RecNo) (x : Slot) (s : State) : (setSlot r x s).notices = s.notices := rfl
@[simp] theorem setSlot_flags (r : RecNo) (x : Slot) (s : State) : (setSlot r x s).flags = s.flags := rfl
@[simp] theorem setSlot_masks (r : RecNo) (x : Slot) (s : State) : (setSlot r x s).masks = s.masks := rfl
@[simp] theorem setSlot_mount (r : RecNo) (x : Slot) (s : State) : (setSlot r x s).mount = s.mount := rfl
@[simp] theorem setSlot_device (r : RecNo) (x : Slot) (s : State) : (setSlot r x s).device = s.device := rfl
@[simp] theorem setSlot_rc (r : RecNo) (x : Slot) (s : State) : (setSlot r x s).rc = s.rc := rfl

/-! ### setSlots -/

@[simp] theorem setSlots_pending (x : Table 128 Slot) (s : State) : (setSlots x s).pending = s.pending := rfl
@[simp] theorem setSlots_array (x : Table 128 Slot) (s : State) : (setSlots x s).array = s.array := rfl
@[simp] theorem setSlots_ports (x : Table 128 Slot) (s : State) : (setSlots x s).ports = s.ports := rfl
@[simp] theorem setSlots_clearLow (x : Table 128 Slot) (s : State) : (setSlots x s).clearLow = s.clearLow := rfl
@[simp] theorem setSlots_csLow (x : Table 128 Slot) (s : State) : (setSlots x s).csLow = s.csLow := rfl
@[simp] theorem setSlots_sessions (x : Table 128 Slot) (s : State) : (setSlots x s).sessions = s.sessions := rfl
@[simp] theorem setSlots_dir (x : Table 128 Slot) (s : State) : (setSlots x s).dir = { s.dir with slots := x } := rfl
@[simp] theorem setSlots_queue (x : Table 128 Slot) (s : State) : (setSlots x s).queue = s.queue := rfl
@[simp] theorem setSlots_engine (x : Table 128 Slot) (s : State) : (setSlots x s).engine = s.engine := rfl
@[simp] theorem setSlots_results (x : Table 128 Slot) (s : State) : (setSlots x s).results = s.results := rfl
@[simp] theorem setSlots_arbiters (x : Table 128 Slot) (s : State) : (setSlots x s).arbiters = s.arbiters := rfl
@[simp] theorem setSlots_reads (x : Table 128 Slot) (s : State) : (setSlots x s).reads = s.reads := rfl
@[simp] theorem setSlots_locks (x : Table 128 Slot) (s : State) : (setSlots x s).locks = s.locks := rfl
@[simp] theorem setSlots_reports (x : Table 128 Slot) (s : State) : (setSlots x s).reports = s.reports := rfl
@[simp] theorem setSlots_notices (x : Table 128 Slot) (s : State) : (setSlots x s).notices = s.notices := rfl
@[simp] theorem setSlots_flags (x : Table 128 Slot) (s : State) : (setSlots x s).flags = s.flags := rfl
@[simp] theorem setSlots_masks (x : Table 128 Slot) (s : State) : (setSlots x s).masks = s.masks := rfl
@[simp] theorem setSlots_mount (x : Table 128 Slot) (s : State) : (setSlots x s).mount = s.mount := rfl
@[simp] theorem setSlots_device (x : Table 128 Slot) (s : State) : (setSlots x s).device = s.device := rfl
@[simp] theorem setSlots_rc (x : Table 128 Slot) (s : State) : (setSlots x s).rc = s.rc := rfl

/-! ### setLayout -/

@[simp] theorem setLayout_pending (x : Option LayoutVersion) (s : State) : (setLayout x s).pending = s.pending := rfl
@[simp] theorem setLayout_array (x : Option LayoutVersion) (s : State) : (setLayout x s).array = s.array := rfl
@[simp] theorem setLayout_ports (x : Option LayoutVersion) (s : State) : (setLayout x s).ports = s.ports := rfl
@[simp] theorem setLayout_clearLow (x : Option LayoutVersion) (s : State) :
    (setLayout x s).clearLow = s.clearLow := rfl
@[simp] theorem setLayout_csLow (x : Option LayoutVersion) (s : State) : (setLayout x s).csLow = s.csLow := rfl
@[simp] theorem setLayout_sessions (x : Option LayoutVersion) (s : State) :
    (setLayout x s).sessions = s.sessions := rfl
@[simp] theorem setLayout_dir (x : Option LayoutVersion) (s : State) :
    (setLayout x s).dir = { s.dir with layout := x } := rfl
@[simp] theorem setLayout_queue (x : Option LayoutVersion) (s : State) : (setLayout x s).queue = s.queue := rfl
@[simp] theorem setLayout_engine (x : Option LayoutVersion) (s : State) : (setLayout x s).engine = s.engine := rfl
@[simp] theorem setLayout_results (x : Option LayoutVersion) (s : State) : (setLayout x s).results = s.results := rfl
@[simp] theorem setLayout_arbiters (x : Option LayoutVersion) (s : State) :
    (setLayout x s).arbiters = s.arbiters := rfl
@[simp] theorem setLayout_reads (x : Option LayoutVersion) (s : State) : (setLayout x s).reads = s.reads := rfl
@[simp] theorem setLayout_locks (x : Option LayoutVersion) (s : State) : (setLayout x s).locks = s.locks := rfl
@[simp] theorem setLayout_reports (x : Option LayoutVersion) (s : State) : (setLayout x s).reports = s.reports := rfl
@[simp] theorem setLayout_notices (x : Option LayoutVersion) (s : State) : (setLayout x s).notices = s.notices := rfl
@[simp] theorem setLayout_flags (x : Option LayoutVersion) (s : State) : (setLayout x s).flags = s.flags := rfl
@[simp] theorem setLayout_masks (x : Option LayoutVersion) (s : State) : (setLayout x s).masks = s.masks := rfl
@[simp] theorem setLayout_mount (x : Option LayoutVersion) (s : State) : (setLayout x s).mount = s.mount := rfl
@[simp] theorem setLayout_device (x : Option LayoutVersion) (s : State) : (setLayout x s).device = s.device := rfl
@[simp] theorem setLayout_rc (x : Option LayoutVersion) (s : State) : (setLayout x s).rc = s.rc := rfl

/-! ### setNotices -/

@[simp] theorem setNotices_pending (p : Port) (x : List Notice) (s : State) :
    (setNotices p x s).pending = s.pending := rfl
@[simp] theorem setNotices_array (p : Port) (x : List Notice) (s : State) : (setNotices p x s).array = s.array := rfl
@[simp] theorem setNotices_ports (p : Port) (x : List Notice) (s : State) : (setNotices p x s).ports = s.ports := rfl
@[simp] theorem setNotices_clearLow (p : Port) (x : List Notice) (s : State) :
    (setNotices p x s).clearLow = s.clearLow := rfl
@[simp] theorem setNotices_csLow (p : Port) (x : List Notice) (s : State) : (setNotices p x s).csLow = s.csLow := rfl
@[simp] theorem setNotices_sessions (p : Port) (x : List Notice) (s : State) :
    (setNotices p x s).sessions = s.sessions := rfl
@[simp] theorem setNotices_dir (p : Port) (x : List Notice) (s : State) : (setNotices p x s).dir = s.dir := rfl
@[simp] theorem setNotices_queue (p : Port) (x : List Notice) (s : State) : (setNotices p x s).queue = s.queue := rfl
@[simp] theorem setNotices_engine (p : Port) (x : List Notice) (s : State) :
    (setNotices p x s).engine = s.engine := rfl
@[simp] theorem setNotices_results (p : Port) (x : List Notice) (s : State) :
    (setNotices p x s).results = s.results := rfl
@[simp] theorem setNotices_arbiters (p : Port) (x : List Notice) (s : State) :
    (setNotices p x s).arbiters = s.arbiters := rfl
@[simp] theorem setNotices_reads (p : Port) (x : List Notice) (s : State) : (setNotices p x s).reads = s.reads := rfl
@[simp] theorem setNotices_locks (p : Port) (x : List Notice) (s : State) : (setNotices p x s).locks = s.locks := rfl
@[simp] theorem setNotices_reports (p : Port) (x : List Notice) (s : State) :
    (setNotices p x s).reports = s.reports := rfl
@[simp] theorem setNotices_notices (p : Port) (x : List Notice) (s : State) :
    (setNotices p x s).notices = s.notices.set p x := rfl
@[simp] theorem setNotices_flags (p : Port) (x : List Notice) (s : State) :
    (setNotices p x s).flags = s.flags.set p { s.flags.get p with noticePending := !x.isEmpty } := rfl
@[simp] theorem setNotices_masks (p : Port) (x : List Notice) (s : State) : (setNotices p x s).masks = s.masks := rfl
@[simp] theorem setNotices_mount (p : Port) (x : List Notice) (s : State) : (setNotices p x s).mount = s.mount := rfl
@[simp] theorem setNotices_device (p : Port) (x : List Notice) (s : State) :
    (setNotices p x s).device = s.device := rfl
@[simp] theorem setNotices_rc (p : Port) (x : List Notice) (s : State) : (setNotices p x s).rc = s.rc := rfl

end Machine

end Sys2Proof
end

