-- ==== Sys2Proof/Laws/Memory.lean ====
section
/-! SUPPORT. The array: what a read finds after a write, that every write keeps the canonical form, and what the page
steps leave (R20 to R22). -/

namespace Sys2Proof.Machine

/-! ## Reading after writing -/

theorem memRead_memWrite_ne (m : Mem) (a b : Nat) (v : Byte) (h : b ≠ a) :
    memRead (memWrite m a v) b = memRead m b := by
  induction m with
  | nil =>
    simp only [memWrite]
    split <;> simp [memRead, h]
  | cons c t ih =>
    obtain ⟨k, w⟩ := c
    simp only [memWrite]
    split
    · split <;> simp [memRead, h]
    · split
      · subst_vars
        split <;> simp [memRead, h]
      · simp [memRead, ih]

/-- An address below every listed one reads blank. -/
theorem memRead_of_lt (m : Mem) (a : Nat) (h : ∀ c ∈ m, a < c.1) : memRead m a = Config.blankByte := by
  induction m with
  | nil => rfl
  | cons c t ih =>
    obtain ⟨k, w⟩ := c
    have hk : a < k := h (k, w) (by simp)
    have : a ≠ k := by omega
    simp only [memRead, this, if_false]
    exact ih fun c hc => h c (by simp [hc])

/-- The two halves of the canonical form. -/
theorem memWf_iff (m : Mem) :
    memWf m = true ↔
      m.Pairwise (fun x y => x.1 < y.1) ∧ ∀ c ∈ m, c.1 < 2 * Config.planeBytes ∧ c.2 ≠ Config.blankByte := by
  simp [memWf]

theorem memRead_memWrite_self_of_sorted (m : Mem) (a : Nat) (v : Byte)
    (h : m.Pairwise fun x y => x.1 < y.1) : memRead (memWrite m a v) a = v := by
  induction m with
  | nil =>
    simp only [memWrite]
    split <;> simp_all [memRead]
  | cons c t ih =>
    obtain ⟨k, w⟩ := c
    rw [List.pairwise_cons] at h
    simp only [memWrite]
    split
    · rename_i hlt
      split
      · rename_i hv
        rw [memRead_of_lt _ _ (by
          intro c hc
          rcases List.mem_cons.mp hc with rfl | hc
          · exact hlt
          · exact Nat.lt_trans hlt (h.1 c hc)), hv]
      · simp [memRead]
    · split
      · subst_vars
        split
        · rename_i hv
          rw [memRead_of_lt _ _ fun c hc => h.1 c hc, hv]
        · simp [memRead]
      · rename_i hne
        simp only [memRead, hne, if_false]
        exact ih h.2

theorem memRead_memWrite_self (m : Mem) (a : Nat) (v : Byte) (h : memWf m = true) :
    memRead (memWrite m a v) a = v :=
  memRead_memWrite_self_of_sorted m a v ((memWf_iff m).mp h).1

/-! ## The canonical form -/

/-- What a written memory lists: the written byte, or what was listed before. -/
theorem mem_memWrite (m : Mem) (a : Nat) (v : Byte) (c : Host.Cell) (h : c ∈ memWrite m a v) :
    (c = (a, v) ∧ v ≠ Config.blankByte) ∨ c ∈ m := by
  induction m with
  | nil =>
    simp only [memWrite] at h
    split at h <;> simp_all
  | cons d t ih =>
    obtain ⟨k, w⟩ := d
    simp only [memWrite] at h
    split at h
    · split at h
      · exact .inr h
      · rcases List.mem_cons.mp h with rfl | h
        · exact .inl ⟨rfl, by assumption⟩
        · exact .inr h
    · split at h
      · split at h
        · exact .inr (by simp [h])
        · rcases List.mem_cons.mp h with rfl | h
          · exact .inl ⟨rfl, by assumption⟩
          · exact .inr (by simp [h])
      · rcases List.mem_cons.mp h with rfl | h
        · exact .inr (by simp)
        · rcases ih h with h | h
          · exact .inl h
          · exact .inr (by simp [h])

theorem memWrite_wf (m : Mem) (a : Nat) (v : Byte) (ha : a < 2 * Config.planeBytes) (h : memWf m = true) :
    memWf (memWrite m a v) = true := by
  rw [memWf_iff] at h ⊢
  obtain ⟨hs, hb⟩ := h
  refine ⟨?_, ?_⟩
  · clear hb
    induction m with
    | nil =>
      simp only [memWrite]
      split <;> simp
    | cons c t ih =>
      obtain ⟨k, w⟩ := c
      rw [List.pairwise_cons] at hs
      simp only [memWrite]
      split
      · rename_i hlt
        split
        · exact List.pairwise_cons.mpr hs
        · refine List.pairwise_cons.mpr ⟨?_, List.pairwise_cons.mpr hs⟩
          intro c hc
          rcases List.mem_cons.mp hc with rfl | hc
          · exact hlt
          · exact Nat.lt_trans hlt (hs.1 c hc)
      · split
        · subst_vars
          split
          · exact hs.2
          · exact List.pairwise_cons.mpr hs
        · rename_i hge hne
          refine List.pairwise_cons.mpr ⟨?_, ih hs.2⟩
          intro c hc
          rcases mem_memWrite t a v c hc with ⟨rfl, _⟩ | hc
          · show k < a
            omega
          · exact hs.1 c hc
  · intro c hc
    rcases mem_memWrite m a v c hc with ⟨rfl, hv⟩ | hc
    · exact ⟨ha, hv⟩
    · exact hb c hc

theorem memWriteBytes_wf (l : List Byte) (m : Mem) (a : Nat) (ha : a + l.length ≤ 2 * Config.planeBytes)
    (h : memWf m = true) : memWf (memWriteBytes m a l) = true := by
  induction l generalizing m a with
  | nil => exact h
  | cons v vs ih =>
    simp only [List.length_cons] at ha
    exact ih _ _ (by omega) (memWrite_wf m a v (by omega) h)

theorem memRead_memWriteBytes_outside (l : List Byte) (m : Mem) (a b : Nat) (hb : b < a ∨ a + l.length ≤ b) :
    memRead (memWriteBytes m a l) b = memRead m b := by
  induction l generalizing m a with
  | nil => rfl
  | cons v vs ih =>
    simp only [List.length_cons] at hb
    simp only [memWriteBytes]
    rw [ih _ _ (by omega), memRead_memWrite_ne _ _ _ _ (by omega)]

theorem memRead_memWriteBytes_inside (l : List Byte) (m : Mem) (a i : Nat) (hi : i < l.length)
    (ha : a + l.length ≤ 2 * Config.planeBytes) (h : memWf m = true) :
    memRead (memWriteBytes m a l) (a + i) = l[i] := by
  induction l generalizing m a i with
  | nil => simp at hi
  | cons v vs ih =>
    simp only [List.length_cons] at ha
    have hw := memWrite_wf m a v (by omega) h
    simp only [memWriteBytes]
    cases i with
    | zero =>
      rw [memRead_memWriteBytes_outside _ _ _ _ (by omega), Nat.add_zero, memRead_memWrite_self _ _ _ h]
      rfl
    | succ j =>
      have hj : j < vs.length := by simpa using hi
      rw [show a + (j + 1) = a + 1 + j by omega, ih _ _ _ hj (by omega) hw]
      rfl

/-! ## Pages (R18, R19) -/

/-- An extent reads as the bytes written to it. -/
theorem readExtent_memWriteBytes_self (l : List Byte) (m : Mem) (pl : Plane) (base n : Nat) (hn : l.length = 32 * n)
    (ha : pageAddress pl base + 32 * n ≤ 2 * Config.planeBytes) (h : memWf m = true) :
    readExtent (memWriteBytes m (pageAddress pl base) l) pl base n = l := by
  apply List.ext_getElem
  · simp only [readExtent, memReadBytes, List.length_map, List.length_range, hn]
  · intro i h1 h2
    simp only [readExtent, memReadBytes, List.getElem_map, List.getElem_range]
    exact memRead_memWriteBytes_inside l m _ i h2 (by omega) h

/-- An extent reads as before where bytes are written beside it. -/
theorem readExtent_memWriteBytes_outside (l : List Byte) (m : Mem) (pl : Plane) (a base n : Nat)
    (h : pageAddress pl base + 32 * n ≤ a ∨ a + l.length ≤ pageAddress pl base) :
    readExtent (memWriteBytes m a l) pl base n = readExtent m pl base n := by
  simp only [readExtent, memReadBytes]
  apply List.map_congr_left
  intro i hi
  rw [List.mem_range] at hi
  exact memRead_memWriteBytes_outside l m a _ (by omega)

theorem pageAddress_lt (pl : Plane) (page : Nat) (h : page < Config.planePages) :
    pageAddress pl page + 32 ≤ 2 * Config.planeBytes := by
  cases pl <;> simp only [pageAddress, planeIndex, Config.planeBytes, Config.planePages, Config.pageBytes] at * <;> omega

theorem writePage_wf (m : Mem) (pl : Plane) (page : Nat) (x : PageBytes) (hp : page < Config.planePages)
    (h : memWf m = true) : memWf (writePage m pl page x) = true :=
  memWriteBytes_wf _ _ _ (by rw [x.size]; exact pageAddress_lt pl page hp) h

/-- A page write leaves every byte outside the page. -/
theorem memRead_writePage_outside (m : Mem) (pl : Plane) (page : Nat) (x : PageBytes) (a : Nat)
    (h : a < pageAddress pl page ∨ pageAddress pl page + 32 ≤ a) :
    memRead (writePage m pl page x) a = memRead m a :=
  memRead_memWriteBytes_outside _ _ _ _ (by rw [x.size]; exact h)

/-- A page reads back as it was written. -/
theorem readPage_writePage (m : Mem) (pl : Plane) (page : Nat) (x : PageBytes) (hp : page < Config.planePages)
    (h : memWf m = true) : readPage (writePage m pl page x) pl page = x := by
  apply Table.cells_injective
  apply List.ext_getElem
  · rw [(readPage _ pl page).size, x.size]
  · intro i h1 h2
    simp only [readPage, memReadBytes, List.getElem_map, List.getElem_range, writePage]
    exact memRead_memWriteBytes_inside _ _ _ i h2 (by rw [x.size]; exact pageAddress_lt pl page hp) h

/-- The reset array is canonical. -/
theorem reset_arrayWf : memWf State.reset.array = true := by decide

/-! ## Page steps (R20 to R22) -/

/-- An erase attempt that does not raise byte 0 to 0xFF changes no other byte (R20). -/
theorem eraseAttempt_byte0_first (old raised : PageBytes) (h : (eraseAttempt old raised).get 0 ≠ 0xFF) (i : Fin 32)
    (hi : i ≠ 0) : (eraseAttempt old raised).get i = old.get i := by
  unfold eraseAttempt at h ⊢
  by_cases hf : (Table.zipWith (fun o m => o ||| m) old raised).get 0 = 0xFF
  · rw [if_pos hf] at h
    exact absurd hf h
  · rw [if_neg hf, Table.get_set_ne _ _ _ _ (Ne.symm hi)]

/-- An erase cut off left the page untouched, or raised byte 0 to 0xFF first (R22). -/
theorem eraseCut_cases (old raised : PageBytes) :
    eraseCut old raised = old ∨ (eraseCut old raised).get 0 = 0xFF := by
  unfold eraseCut
  by_cases hf : (Table.zipWith (fun o m => o ||| m) old raised).get 0 = 0xFF
  · exact .inr (by rw [if_pos hf]; exact hf)
  · exact .inl (if_neg hf)

/-- A program attempt sets no bit (R21). -/
theorem programAttempt_clears (old new cleared : PageBytes) (i : Fin 32) (k : Nat)
    (h : ((programAttempt old new cleared).get i).getLsbD k = true) : (old.get i).getLsbD k = true := by
  unfold programAttempt at h
  simp only at h
  split at h
  · simp only [Table.get_zipWith, BitVec.getLsbD_and, Bool.and_eq_true] at h
    exact h.1
  · by_cases h0 : i = 0
    · subst h0
      simpa using h
    · rw [Table.get_set_ne _ _ _ _ (Ne.symm h0)] at h
      simp only [Table.get_zipWith, BitVec.getLsbD_and, Bool.and_eq_true] at h
      exact h.1

/-- A program attempt, whole or cut off, changes byte 0 only once bytes 1 to 31 hold what the step programs (R21,
R22). -/
theorem programAttempt_byte0_last (old new cleared : PageBytes)
    (h : (programAttempt old new cleared).get 0 ≠ old.get 0) :
    (programAttempt old new cleared).cells.tail = (programTarget old new).cells.tail := by
  unfold programAttempt at h ⊢
  simp only at h ⊢
  split
  · assumption
  · rename_i hn
    rw [if_neg hn] at h
    simp at h

/-- A program attempt on an erased page that changes every bit it has to leaves the content asked for (R21). -/
theorem programAttempt_erased_all (new : PageBytes) : programAttempt erasedPage new (Table.fill 32 0xFF) = new := by
  have ones : ∀ b : Byte, 0xFF &&& b = b := by decide +kernel
  have none : ∀ b : Byte, b ||| ~~~0xFF = b := by decide +kernel
  have ht : programTarget erasedPage new = new := Table.ext_get fun i => by
    simp only [programTarget, erasedPage, Table.get_zipWith, Table.get_fill, ones]
  have hf : Table.zipWith (fun o k => o &&& k) erasedPage
      (Table.zipWith (fun t c => t ||| ~~~c) new (Table.fill 32 0xFF)) = new := Table.ext_get fun i => by
    simp only [erasedPage, Table.get_zipWith, Table.get_fill, ones, none]
  simp only [programAttempt, ht, hf, if_true]

end Sys2Proof.Machine
end

