-- ==== Sys2Proof/Laws/Frames.lean ====
section
/-! SUPPORT. What each shared operation may write: `Only h s t` says that from `s` to `t` nothing changed outside the
homes `h`. It composes, so the frame of a meaning is the union of the frames of the operations it is written over. -/

namespace Sys2Proof.Machine

/-- For each field of State, whether an effect may write it. -/
structure Homes where
  pending : Bool := false
  array : Bool := false
  ports : Bool := false
  clearLow : Bool := false
  csLow : Bool := false
  sessions : Bool := false
  dir : Bool := false
  queue : Bool := false
  engine : Bool := false
  results : Bool := false
  arbiters : Bool := false
  reads : Bool := false
  locks : Bool := false
  reports : Bool := false
  notices : Bool := false
  flags : Bool := false
  masks : Bool := false
  mount : Bool := false
  device : Bool := false
  rc : Bool := false
  deriving DecidableEq, Repr

namespace Homes

/-- Every home of the first is a home of the second. -/
def le (x y : Homes) : Bool :=
  (!x.pending || y.pending) && (!x.array || y.array) && (!x.ports || y.ports) &&
  (!x.clearLow || y.clearLow) && (!x.csLow || y.csLow) && (!x.sessions || y.sessions) &&
  (!x.dir || y.dir) && (!x.queue || y.queue) && (!x.engine || y.engine) &&
  (!x.results || y.results) && (!x.arbiters || y.arbiters) && (!x.reads || y.reads) &&
  (!x.locks || y.locks) && (!x.reports || y.reports) && (!x.notices || y.notices) &&
  (!x.flags || y.flags) && (!x.masks || y.masks) && (!x.mount || y.mount) &&
  (!x.device || y.device) && (!x.rc || y.rc)

/-- The second state in the homes, the first outside them. -/
def mix (h : Homes) (s t : State) : State where
  pending := bif h.pending then t.pending else s.pending
  array := bif h.array then t.array else s.array
  ports := bif h.ports then t.ports else s.ports
  clearLow := bif h.clearLow then t.clearLow else s.clearLow
  csLow := bif h.csLow then t.csLow else s.csLow
  sessions := bif h.sessions then t.sessions else s.sessions
  dir := bif h.dir then t.dir else s.dir
  queue := bif h.queue then t.queue else s.queue
  engine := bif h.engine then t.engine else s.engine
  results := bif h.results then t.results else s.results
  arbiters := bif h.arbiters then t.arbiters else s.arbiters
  reads := bif h.reads then t.reads else s.reads
  locks := bif h.locks then t.locks else s.locks
  reports := bif h.reports then t.reports else s.reports
  notices := bif h.notices then t.notices else s.notices
  flags := bif h.flags then t.flags else s.flags
  masks := bif h.masks then t.masks else s.masks
  mount := bif h.mount then t.mount else s.mount
  device := bif h.device then t.device else s.device
  rc := bif h.rc then t.rc else s.rc

end Homes

/-- From `s` to `t` nothing changed outside the homes `h`. -/
structure Only (h : Homes) (s t : State) : Prop where
  pending : h.pending = false → t.pending = s.pending
  array : h.array = false → t.array = s.array
  ports : h.ports = false → t.ports = s.ports
  clearLow : h.clearLow = false → t.clearLow = s.clearLow
  csLow : h.csLow = false → t.csLow = s.csLow
  sessions : h.sessions = false → t.sessions = s.sessions
  dir : h.dir = false → t.dir = s.dir
  queue : h.queue = false → t.queue = s.queue
  engine : h.engine = false → t.engine = s.engine
  results : h.results = false → t.results = s.results
  arbiters : h.arbiters = false → t.arbiters = s.arbiters
  reads : h.reads = false → t.reads = s.reads
  locks : h.locks = false → t.locks = s.locks
  reports : h.reports = false → t.reports = s.reports
  notices : h.notices = false → t.notices = s.notices
  flags : h.flags = false → t.flags = s.flags
  masks : h.masks = false → t.masks = s.masks
  mount : h.mount = false → t.mount = s.mount
  device : h.device = false → t.device = s.device
  rc : h.rc = false → t.rc = s.rc

namespace Only

variable {h h' k : Homes} {s t u : State}

/-- Outside the homes the states agree, as one equation: `t = { s with <homes> := t.<homes> }`. -/
theorem toEq (x : Only h s t) : t = h.mix s t := by
  show t = State.mk _ _ _ _ _ _ _ _ _ _ _ _ _ _ _ _ _ _ _ _
  obtain ⟨a1, a2, a3, a4, a5, a6, a7, a8, a9, b1, b2, b3, b4, b5, b6, b7, b8, b9, c1, c2⟩ := x
  cases t
  simp only [State.mk.injEq]
  refine ⟨?_, ?_, ?_, ?_, ?_, ?_, ?_, ?_, ?_, ?_, ?_, ?_, ?_, ?_, ?_, ?_, ?_, ?_, ?_, ?_⟩
  · cases hh : h.pending <;> simp_all
  · cases hh : h.array <;> simp_all
  · cases hh : h.ports <;> simp_all
  · cases hh : h.clearLow <;> simp_all
  · cases hh : h.csLow <;> simp_all
  · cases hh : h.sessions <;> simp_all
  · cases hh : h.dir <;> simp_all
  · cases hh : h.queue <;> simp_all
  · cases hh : h.engine <;> simp_all
  · cases hh : h.results <;> simp_all
  · cases hh : h.arbiters <;> simp_all
  · cases hh : h.reads <;> simp_all
  · cases hh : h.locks <;> simp_all
  · cases hh : h.reports <;> simp_all
  · cases hh : h.notices <;> simp_all
  · cases hh : h.flags <;> simp_all
  · cases hh : h.masks <;> simp_all
  · cases hh : h.mount <;> simp_all
  · cases hh : h.device <;> simp_all
  · cases hh : h.rc <;> simp_all

theorem ofEq (x : t = h.mix s t) : Only h s t := by
  constructor <;> intro hh <;> rw [x] <;> simp [Homes.mix, hh]

theorem refl (h : Homes) (s : State) : Only h s s := by constructor <;> intro _ <;> rfl

theorem mono (x : Only h s t) (hk : h.le k = true) : Only k s t := by
  simp only [Homes.le, Bool.and_eq_true, Bool.or_eq_true, Bool.not_eq_true'] at hk
  obtain ⟨a1, a2, a3, a4, a5, a6, a7, a8, a9, b1, b2, b3, b4, b5, b6, b7, b8, b9, c1, c2⟩ := x
  constructor <;> intro hh <;> simp_all

theorem trans (x : Only h s t) (y : Only h t u) : Only h s u := by
  constructor <;> intro hh
  · rw [y.pending hh, x.pending hh]
  · rw [y.array hh, x.array hh]
  · rw [y.ports hh, x.ports hh]
  · rw [y.clearLow hh, x.clearLow hh]
  · rw [y.csLow hh, x.csLow hh]
  · rw [y.sessions hh, x.sessions hh]
  · rw [y.dir hh, x.dir hh]
  · rw [y.queue hh, x.queue hh]
  · rw [y.engine hh, x.engine hh]
  · rw [y.results hh, x.results hh]
  · rw [y.arbiters hh, x.arbiters hh]
  · rw [y.reads hh, x.reads hh]
  · rw [y.locks hh, x.locks hh]
  · rw [y.reports hh, x.reports hh]
  · rw [y.notices hh, x.notices hh]
  · rw [y.flags hh, x.flags hh]
  · rw [y.masks hh, x.masks hh]
  · rw [y.mount hh, x.mount hh]
  · rw [y.device hh, x.device hh]
  · rw [y.rc hh, x.rc hh]

/-- The same effect on each of the four ports. -/
theorem forPorts {f : Port → State → State} (x : ∀ p s, Only h s (f p s)) (s : State) :
    Only h s (forPorts f s) :=
  (((x _ _).trans (x _ _)).trans (x _ _)).trans (x _ _)

/-- An effect made for each member of a list. -/
theorem foldl {α : Type} {f : State → α → State} (x : ∀ s a, Only h s (f s a)) (l : List α) (s : State) :
    Only h s (l.foldl f s) := by
  induction l generalizing s with
  | nil => exact refl h s
  | cons a l ih => exact (x s a).trans (ih _)

end Only

/-! ## The updates of State -/

theorem setPort_only (p : Port) (x : PortIf) (s : State) : Only { ports := true } s (setPort p x s) := .ofEq rfl

theorem setCs_only (p : Port) (low : Bool) (s : State) : Only { csLow := true } s (setCs p low s) := .ofEq rfl

theorem setSession_only (p : Port) (x : Session) (s : State) :
    Only { sessions := true } s (setSession p x s) := .ofEq rfl

theorem setQueue_only (x : List Entry) (s : State) : Only { queue := true } s (setQueue x s) := .ofEq rfl

theorem setEngine_only (x : Engine) (s : State) : Only { engine := true } s (setEngine x s) := .ofEq rfl

theorem setResult_only (p : Port) (x : Option CommitResult) (s : State) :
    Only { results := true } s (setResult p x s) := .ofEq rfl

theorem setArbiter_only (pl : Plane) (x : Arbiter) (s : State) :
    Only { arbiters := true } s (setArbiter pl x s) := .ofEq rfl

theorem setRead_only (p : Port) (x : Option Read) (s : State) : Only { reads := true } s (setRead p x s) := .ofEq rfl

theorem setLock_only (r : RecNo) (x : Lock) (s : State) : Only { locks := true } s (setLock r x s) := .ofEq rfl

theorem setReport_only (p : Port) (x : LockReport) (s : State) :
    Only { reports := true } s (setReport p x s) := .ofEq rfl

theorem setFlags_only (p : Port) (x : Flags) (s : State) : Only { flags := true } s (setFlags p x s) := .ofEq rfl

theorem setMask_only (p : Port) (x : Flags) (s : State) : Only { masks := true } s (setMask p x s) := .ofEq rfl

theorem setMount_only (x : MountPhase) (s : State) : Only { mount := true } s (setMount x s) := .ofEq rfl

theorem setDevice_only (x : DeviceState) (s : State) : Only { device := true } s (setDevice x s) := .ofEq rfl

theorem setRc_only (x : ResetControl) (s : State) : Only { rc := true } s (setRc x s) := .ofEq rfl

theorem setArray_only (x : Mem) (s : State) : Only { array := true } s (setArray x s) := .ofEq rfl

theorem setSlot_only (r : RecNo) (x : Slot) (s : State) : Only { dir := true } s (setSlot r x s) := .ofEq rfl

theorem setSlots_only (x : Table 128 Slot) (s : State) : Only { dir := true } s (setSlots x s) := .ofEq rfl

theorem setLayout_only (x : Option LayoutVersion) (s : State) : Only { dir := true } s (setLayout x s) := .ofEq rfl

theorem setNotices_only (p : Port) (x : List Notice) (s : State) :
    Only { notices := true, flags := true } s (setNotices p x s) := .ofEq rfl

/-! ## Transport (chapter 11) -/

theorem respond_only (p : Port) (c : ResultCode) (b : List Byte) (s : State) :
    Only { ports := true } s (respond p c b s) := by
  unfold respond
  split
  · exact .ofEq rfl
  · exact .refl _ s

theorem refuse_only (p : Port) (c : ResultCode) (s : State) : Only { ports := true } s (refuse p c s) :=
  respond_only p c [] s

theorem writeReply_only (p : Port) (s : State) : Only { ports := true } s (writeReply p s) := by
  unfold writeReply
  split
  · exact .ofEq rfl
  · exact .refl _ s

theorem answer_only (p : Port) (c : ResultCode) (b : List Byte) (s : State) :
    Only { ports := true } s (answer p c b s) :=
  (respond_only p c b s).trans (writeReply_only p _)

theorem fallFrame_only (p : Port) (s : State) : Only { ports := true, csLow := true } s (fallFrame p s) := by
  unfold fallFrame
  split
  · exact .refl _ s
  · exact .ofEq rfl

theorem clockFrame_only (p : Port) (bytes : List Byte) (extra : Nat) (s : State) :
    Only { ports := true } s (clockFrame p bytes extra s) := by
  unfold clockFrame
  repeat' split
  all_goals exact .ofEq rfl

theorem endFrame_only (p : Port) (s : State) : Only { ports := true, csLow := true } s (endFrame p s) := .ofEq rfl

/-- The rise of chip select writes the transport state and the pin, and else only what the judgement writes. -/
theorem riseFrame_only {h : Homes} (p : Port) (bytes : List Byte) (extra : Nat) (judge : State → State) (s : State)
    (hp : h.ports = true) (hc : h.csLow = true) (x : ∀ s, Only h s (judge s)) :
    Only h s (riseFrame p bytes extra judge s) := by
  have e : Only h s (endFrame p s) := (endFrame_only p s).mono (by simp [Homes.le, hp, hc])
  unfold riseFrame
  repeat' split
  · exact e
  · exact e.trans (x _)
  · exact .refl _ s
  · exact e
  · exact .refl _ s

/-- A frame, or a part of it, writes the transport state and the pin, and else only what the judgement writes. -/
theorem takeFrame_only {h : Homes} (p : Port) (bytes : List Byte) (extra : Nat) (judge : State → State)
    (part : FramePart) (s : State) (hp : h.ports = true) (hc : h.csLow = true) (x : ∀ s, Only h s (judge s)) :
    Only h s (takeFrame p bytes extra judge part s) := by
  have f : ∀ s, Only h s (fallFrame p s) := fun s => (fallFrame_only p s).mono (by simp [Homes.le, hp, hc])
  have c : ∀ s, Only h s (clockFrame p bytes extra s) := fun s =>
    (clockFrame_only p bytes extra s).mono (by simp [Homes.le, hp])
  unfold takeFrame
  cases part
  · exact ((f s).trans (c _)).trans (riseFrame_only p bytes extra judge _ hp hc x)
  · exact f s
  · exact c s
  · exact riseFrame_only p bytes extra judge _ hp hc x
  · exact .refl _ s

/-- A request's frame writes the transport state and the pin, and else only what its service writes. -/
theorem takeRequest_only {h : Homes} (code : RequestCode) (p : Port) (tag : Byte) (body : List Byte)
    (part : FramePart) (serve : State → State) (s : State) (hp : h.ports = true) (hc : h.csLow = true)
    (x : ∀ s, Only h s (serve s)) : Only h s (takeRequest code p tag body part serve s) := by
  have setP : ∀ (y : PortIf) (s : State), Only h s (setPort p y s) := fun y s =>
    Only.mono (h := { ports := true }) (.ofEq rfl) (by simp [Homes.le, hp])
  have w : ∀ s, Only h s (writeReply p s) := fun s => (writeReply_only p s).mono (by simp [Homes.le, hp])
  have j : ∀ s, Only h s (judgeRequest p tag body serve s) := by
    intro s
    unfold judgeRequest
    repeat' split
    · exact setP _ _
    · exact setP _ _
    · exact (setP _ _).trans (x _)
  have t := takeFrame_only p (requestFrameBytes code tag body) 0 (judgeRequest p tag body serve) part s hp hc j
  unfold takeRequest
  cases part
  · simp only
    split
    · exact t
    · exact t.trans (w _)
  · exact t
  · exact t
  · exact t
  · simp only
    split
    · exact t.trans (w _)
    · exact t

section Service

variable {h : Homes} (p : Port) (s : State)

theorem refuse_only' (c : ResultCode) (hp : h.ports = true) : Only h s (refuse p c s) :=
  (refuse_only p c s).mono (by simp [Homes.le, hp])

theorem respond_only' (c : ResultCode) (b : List Byte) (hp : h.ports = true) : Only h s (respond p c b s) :=
  (respond_only p c b s).mono (by simp [Homes.le, hp])

theorem whenReady_only {serve : State → State} (hp : h.ports = true) (x : Only h s (serve s)) :
    Only h s (whenReady p serve s) := by
  unfold whenReady
  split
  · exact x
  · exact refuse_only' p s _ hp

theorem whenSession_only {serve : State → State} (st : SessionState) (hp : h.ports = true) (x : Only h s (serve s)) :
    Only h s (whenSession p st serve s) := by
  unfold whenSession
  split
  · exact x
  · exact refuse_only' p s _ hp

theorem withBody_only {α : Type} {operand : Option α} {serve : α → State → State} (hp : h.ports = true)
    (x : ∀ a, Only h s (serve a s)) : Only h s (withBody p operand serve s) := by
  unfold withBody
  split
  · exact x _
  · exact refuse_only' p s _ hp

theorem withRecord_only {serve : LayoutEntry → State → State} (r : RecNo) (hp : h.ports = true)
    (x : ∀ e, Only h s (serve e s)) : Only h s (withRecord p r serve s) := by
  unfold withRecord
  split
  · exact x _
  · exact refuse_only' p s _ hp

theorem withContent_only {serve : Plane → State → State} (r : RecNo) (hp : h.ports = true)
    (x : ∀ c, Only h s (serve c s)) : Only h s (withContent p r serve s) := by
  unfold withContent
  split
  · exact x _
  all_goals exact refuse_only' p s _ hp

theorem refuseIf_only {serve : State → State} (bad : Bool) (c : ResultCode) (hp : h.ports = true)
    (x : Only h s (serve s)) : Only h s (refuseIf bad p c serve s) := by
  unfold refuseIf
  split
  · exact refuse_only' p s _ hp
  · exact x

end Service

/-! ## Flags and notices (chapter 7) -/

theorem dropNotice_only (r : RecNo) (p : Port) (s : State) :
    Only { notices := true, flags := true } s (dropNotice r p s) := .ofEq rfl

theorem postNotice_only (n : Notice) (p : Port) (s : State) :
    Only { notices := true, flags := true } s (postNotice n p s) := by
  simp only [postNotice]
  repeat' split
  all_goals exact .ofEq rfl

theorem postNotices_only (r : RecNo) (g : Gen) (p : Port) (s : State) :
    Only { notices := true, flags := true } s (postNotices r g p s) := by
  apply Only.forPorts
  intro q s
  split
  · exact postNotice_only _ _ _
  · exact .refl _ s

theorem stopWatching_only (r : RecNo) (p : Port) (s : State) :
    Only { notices := true, flags := true, dir := true } s (stopWatching r p s) := .ofEq rfl

/-! ## Plane arbiters and reads in progress (2.7, chapter 6) -/

theorem grantRead_only (pl : Plane) (p : Port) (s : State) :
    Only { arbiters := true, reads := true } s (grantRead pl p s) := .ofEq rfl

theorem endTenure_only (pl : Plane) (s : State) :
    Only { arbiters := true, reads := true } s (endTenure pl s) := by
  simp only [endTenure]
  repeat' split
  all_goals exact .ofEq rfl

theorem joinRead_only (pl : Plane) (p : Port) (s : State) :
    Only { arbiters := true, reads := true } s (joinRead pl p s) := by
  simp only [joinRead]
  split <;> exact .ofEq rfl

theorem joinEngine_only (pl : Plane) (s : State) : Only { arbiters := true } s (joinEngine pl s) := by
  simp only [joinEngine]
  split <;> exact .ofEq rfl

theorem withdrawRead_only (p : Port) (s : State) :
    Only { arbiters := true, reads := true } s (withdrawRead p s) := by
  simp only [withdrawRead]
  split <;> exact .ofEq rfl

theorem moveRead_only (r : RecNo) (c : Plane) (p : Port) (s : State) :
    Only { arbiters := true, reads := true } s (moveRead r c p s) := by
  simp only [moveRead]
  repeat' split
  all_goals exact .ofEq rfl

theorem moveReads_only (r : RecNo) (c : Plane) (s : State) :
    Only { arbiters := true, reads := true } s (moveReads r c s) := by
  have x := Only.forPorts (moveRead_only r c) s
  simp only [moveReads]
  split
  · exact x.trans (endTenure_only c _)
  · exact x

theorem clearRead_only (p : Port) (s : State) : Only { arbiters := true, reads := true } s (clearRead p s) := by
  simp only [clearRead]
  repeat' split
  · exact withdrawRead_only p s
  all_goals exact .ofEq rfl

theorem refuseOpen_only (r : RecNo) (p : Port) (s : State) :
    Only { arbiters := true, reads := true, ports := true } s (refuseOpen r p s) := by
  simp only [refuseOpen]
  repeat' split
  · exact ((withdrawRead_only p s).mono (by decide)).trans ((answer_only _ _ _ _).mono (by decide))
  all_goals exact .ofEq rfl

theorem refuseDeleted_only (r : RecNo) (p : Port) (s : State) :
    Only { arbiters := true, reads := true, ports := true } s (refuseDeleted r p s) := by
  simp only [refuseDeleted]
  repeat' split
  · exact ((withdrawRead_only p s).mono (by decide)).trans ((answer_only _ _ _ _).mono (by decide))
  · exact ((withdrawRead_only p s).mono (by decide)).trans ((answer_only _ _ _ _).mono (by decide))
  all_goals exact .ofEq rfl

theorem startRead_only (p : Port) (k : ReadKind) (r : RecNo) (e : LayoutEntry) (c : Plane) (s : State) :
    Only { arbiters := true, reads := true } s (startRead p k r e c s) := by
  unfold startRead
  refine Only.trans ?_ (joinRead_only _ _ _)
  exact .ofEq rfl

/-! ## The lock table (chapter 5) -/

theorem handOn_only (r : RecNo) (s : State) :
    Only { locks := true, reports := true, flags := true } s (handOn r s) := by
  simp only [handOn]
  split <;> exact .ofEq rfl

theorem clearLocks_only (p : Port) (s : State) :
    Only { locks := true, reports := true, flags := true } s (clearLocks p s) := by
  have x : Only { locks := true, reports := true, flags := true } s { s with locks := s.locks.map (leaveWaits p) } :=
    .ofEq rfl
  unfold clearLocks
  refine Only.trans ?_ ((setReport_only _ _ _).mono (by decide))
  refine x.trans (Only.foldl (fun s r => ?_) allRecords _)
  split
  · exact handOn_only r s
  · exact .refl _ s

theorem applyWriteSet_only (r : RecNo) (ws : PortSet) (s : State) :
    Only { locks := true, reports := true, flags := true } s (applyWriteSet r ws s) := by
  have x := fun (l : List Wait) (s : State) => Only.foldl (h := { locks := true, reports := true, flags := true })
    (f := fun (s : State) (w : Wait) => expelWaiter r w.port s) (fun s w => .ofEq rfl) l s
  have z : ∀ (l : Lock) (s : State), Only { locks := true, reports := true, flags := true } s (setLock r l s) :=
    fun l s => .ofEq rfl
  simp only [applyWriteSet]
  repeat' split
  · exact (z _ _).trans (x _ _)
  · refine Only.trans ?_ (handOn_only _ _)
    exact ((z _ _).trans (x _ _)).trans (.ofEq rfl)
  · exact (z _ _).trans (x _ _)

/-! ## Sessions and the commit queue (chapters 3 and 4) -/

theorem storeStaged_only (p : Port) (n o : Nat) (d : List Byte) (s : State) :
    Only { sessions := true, ports := true } s (storeStaged p n o d s) := by
  simp only [storeStaged]
  refine Only.trans ?_ ((respond_only _ _ _ _).mono (by decide))
  exact .ofEq rfl

theorem enqueue_only (p : Port) (w : Work) (s : State) :
    Only { queue := true, sessions := true, ports := true } s (enqueue p w s) := by
  unfold enqueue
  refine Only.trans ?_ ((respond_only _ _ _ _).mono (by decide))
  exact .ofEq rfl

theorem undoEntry_only (e : Entry) (s : State) : Only { dir := true } s (undoEntry e s) := by
  unfold undoEntry
  split
  · exact .ofEq rfl
  · exact .refl _ s

theorem removeEntry_only (p : Port) (s : State) : Only { queue := true, dir := true } s (removeEntry p s) := by
  simp only [removeEntry]
  split
  · refine Only.trans ?_ ((undoEntry_only _ _).mono (by decide))
    exact .ofEq rfl
  · exact .ofEq rfl

/-! ## The program engine (chapter 4) -/

theorem handOutEnd_only (e : Entry) (x : CommitResult) (s : State) :
    Only { results := true, sessions := true, flags := true } s (handOutEnd e x s) := by
  unfold handOutEnd
  split
  · exact .refl _ s
  · exact .ofEq rfl

theorem engineIdle_only (s : State) : Only { engine := true } s (engineIdle s) := .ofEq rfl

theorem failRecord_only (e : Entry) (r : RecNo) (c : ResultCode) (s : State) :
    Only { results := true, sessions := true, flags := true, engine := true } s (failRecord e r c s) := by
  unfold failRecord
  exact ((handOutEnd_only _ _ s).mono (by decide)).trans ((engineIdle_only _).mono (by decide))

theorem failLayout_only (e : Entry) (c : ResultCode) (s : State) :
    Only { results := true, sessions := true, flags := true, engine := true, dir := true } s (failLayout e c s) := by
  simp only [failLayout]
  exact (((undoEntry_only e s).mono (by decide)).trans ((handOutEnd_only _ _ _).mono (by decide))).trans
    ((engineIdle_only _).mono (by decide))

theorem failFault_only (e : Entry) (s : State) :
    Only { results := true, sessions := true, flags := true, engine := true, dir := true } s (failFault e s) := by
  unfold failFault
  split
  · exact (failRecord_only _ _ _ _).mono (by decide)
  · exact failLayout_only _ _ _

/-- What the end of a RECORD entry may write (R71). -/
theorem completeRecord_only (e : Entry) (r : RecNo) (c : Plane) (g : Gen) (s : State) :
    Only { dir := true, arbiters := true, reads := true, results := true, sessions := true, flags := true,
           notices := true, engine := true } s (completeRecord e r c g s) := by
  simp only [completeRecord]
  refine Only.trans ?_ ((engineIdle_only _).mono (by decide))
  refine Only.trans ?_ ((postNotices_only _ _ _ _).mono (by decide))
  refine Only.trans ?_ ((handOutEnd_only _ _ _).mono (by decide))
  refine Only.trans ?_ ((moveReads_only _ _ _).mono (by decide))
  exact .ofEq rfl

theorem applyLayoutOp_only (op : LayoutOp) (s : State) :
    Only { dir := true, device := true, arbiters := true, reads := true, ports := true, flags := true, notices := true,
           locks := true, reports := true } s (applyLayoutOp op s) := by
  unfold applyLayoutOp
  split
  · exact .ofEq rfl
  · exact .ofEq rfl
  · refine Only.trans ?_ (Only.forPorts (fun p s => ?_) _)
    · exact .ofEq rfl
    · exact ((refuseDeleted_only _ p s).mono (by decide)).trans ((dropNotice_only _ _ _).mono (by decide))
  · simp only [setAccessEffects]
    refine Only.trans ?_ ((applyWriteSet_only _ _ _).mono (by decide))
    refine Only.trans ?_ (Only.forPorts (fun p s => ?_) _)
    · exact .ofEq rfl
    · split
      · exact (stopWatching_only _ _ _).mono (by decide)
      · exact .refl _ s

/-- What the end of a LAYOUT entry may write (R137). -/
theorem completeLayout_only (e : Entry) (op : LayoutOp) (c : Plane) (g : Gen) (s : State) :
    Only { dir := true, device := true, arbiters := true, reads := true, ports := true, flags := true, notices := true,
           locks := true, reports := true, results := true, sessions := true, engine := true }
      s (completeLayout e op c g s) := by
  simp only [completeLayout]
  refine Only.trans ?_ ((engineIdle_only _).mono (by decide))
  refine Only.trans ?_ (Only.forPorts (fun p s => Only.ofEq (t := raiseLayoutChanged p s) rfl) _)
  refine Only.trans ?_ ((handOutEnd_only _ _ _).mono (by decide))
  refine Only.trans ?_ ((applyLayoutOp_only _ _).mono (by decide))
  exact .ofEq rfl

/-- The engine's work between two page steps never writes the array, the queue, the clear lines, the chip selects, the
masks, mount or reset control. -/
theorem completeEntry_only (e : Entry) (s : State) :
    Only { dir := true, device := true, arbiters := true, reads := true, ports := true, flags := true, notices := true,
           locks := true, reports := true, results := true, sessions := true, engine := true }
      s (completeEntry e s) := by
  unfold completeEntry
  split
  · split
    · exact (completeRecord_only _ _ _ _ _).mono (by decide)
    · exact completeLayout_only _ _ _ _ _
  · exact .refl _ s

theorem askStep_only (st : EngineStep) (n : Nat) (s : State) :
    Only { engine := true, arbiters := true } s (askStep st n s) := by
  unfold askStep
  refine Only.trans ?_ ((joinEngine_only _ _).mono (by decide))
  exact .ofEq rfl

theorem leavePage_only (pl : Plane) (page : Nat) (x : PageBytes) (s : State) :
    Only { array := true, arbiters := true, reads := true } s (leavePage pl page x s) := by
  unfold leavePage
  refine Only.trans ?_ ((endTenure_only _ _).mono (by decide))
  exact .ofEq rfl

theorem stepPassed_only (e : Entry) (st : EngineStep) (s : State) :
    Only { dir := true, device := true, arbiters := true, reads := true, ports := true, flags := true, notices := true,
           locks := true, reports := true, results := true, sessions := true, engine := true }
      s (stepPassed e st s) := by
  unfold stepPassed
  split
  · exact (askStep_only _ _ _).mono (by decide)
  · exact completeEntry_only _ _

theorem stepFailed_only (e : Entry) (st : EngineStep) (s : State) :
    Only { dir := true, arbiters := true, flags := true, results := true, sessions := true, engine := true }
      s (stepFailed e st s) := by
  unfold stepFailed stepExhausted
  repeat' split
  all_goals first
    | exact (askStep_only _ _ _).mono (by decide)
    | exact (failFault_only _ _).mono (by decide)

theorem startEntry_only (e : Entry) (s : State) :
    Only { dir := true, arbiters := true, flags := true, results := true, sessions := true, engine := true }
      s (startEntry e s) := by
  have base : ∀ s : State, Only
      { dir := true, arbiters := true, flags := true, results := true, sessions := true, engine := true }
      s (setEngine { Engine.reset with state := .check, entry := some e }
        (setSession e.port { sessionOf s e.port with state := .programming } s)) := fun s => .ofEq rfl
  simp only [startEntry]
  split
  · refine (base s).trans ?_
    simp only [startRecord]
    repeat' split
    · refine Only.trans ?_ ((failRecord_only _ _ _ _).mono (by decide))
      exact .ofEq rfl
    · refine Only.trans ?_ ((failRecord_only _ _ _ _).mono (by decide))
      exact .ofEq rfl
    · refine Only.trans ?_ ((askStep_only _ _ _).mono (by decide))
      exact .ofEq rfl
  · refine (base s).trans ?_
    simp only [startLayout]
    split
    · refine Only.trans ?_ ((failLayout_only _ _ _).mono (by decide))
      exact .ofEq rfl
    · refine Only.trans ?_ ((askStep_only _ _ _).mono (by decide))
      exact .ofEq rfl

/-! ## Port clear and mount -/

theorem clearSession_only (p : Port) (s : State) :
    Only { sessions := true, queue := true, dir := true } s (clearSession p s) := by
  unfold clearSession
  refine Only.trans ?_ (.ofEq rfl)
  split
  · exact (removeEntry_only p s).mono (by decide)
  · exact .refl _ s

theorem detachEntry_only (p : Port) (s : State) : Only { engine := true } s (detachEntry p s) := by
  unfold detachEntry
  repeat' split
  all_goals exact .ofEq rfl

theorem leaveWatchSets_only (p : Port) (s : State) : Only { dir := true } s (leaveWatchSets p s) := .ofEq rfl

theorem clearNotices_only (p : Port) (s : State) :
    Only { notices := true, masks := true, flags := true } s (clearNotices p s) := .ofEq rfl

/-- A port clear never writes the array, the clear lines, the chip selects, mount, the device state or reset control
(R164). -/
theorem clearPort_only (p : Port) (s : State) :
    Only { ports := true, arbiters := true, reads := true, sessions := true, queue := true, dir := true, engine := true,
           results := true, locks := true, reports := true, flags := true, notices := true, masks := true }
      s (clearPort p s) := by
  simp only [clearPort]
  refine Only.trans ?_ ((clearNotices_only p _).mono (by decide))
  refine Only.trans ?_ ((leaveWatchSets_only p _).mono (by decide))
  refine Only.trans ?_ ((clearLocks_only p _).mono (by decide))
  refine Only.trans ?_ ((setResult_only p _ _).mono (by decide))
  refine Only.trans ?_ ((detachEntry_only p _).mono (by decide))
  refine Only.trans ?_ ((clearSession_only p _).mono (by decide))
  refine Only.trans ?_ ((clearRead_only p _).mono (by decide))
  exact (setPort_only _ _ _).mono (by decide)

theorem endMount_only (d : DeviceState) (s : State) :
    Only { arbiters := true, flags := true, mount := true, device := true, rc := true } s (endMount d s) := by
  have raise : ∀ (f : Port → State → State) (hf : ∀ p s, Only { flags := true } s (f p s)) (s : State),
      Only { arbiters := true, flags := true, mount := true, device := true, rc := true } s (forPorts f s) :=
    fun f hf s => (Only.forPorts hf s).mono (by decide)
  have base : Only { arbiters := true, flags := true, mount := true, device := true, rc := true } s
      (setMount .idle (setDevice d { s with arbiters := ⟨Arbiter.reset, Arbiter.reset⟩ })) := .ofEq rfl
  have x := base.trans (raise raiseResetSeen (fun p s => .ofEq rfl) _)
  simp only [endMount]
  split
  · exact (x.trans ((setRc_only _ _).mono (by decide))).trans (raise raiseSupplyWarn (fun p s => .ofEq rfl) _)
  · exact x

end Sys2Proof.Machine
end

