-- ==== Sys2Proof/Laws/Requests.lean ====
section
/-! SUPPORT. How a REQUEST frame reaches its owner and how it is answered, said once: an accepted request is served in
`awaiting s p tag body`, and its response turns that into `answered`. The operand forms give back what a body was made of. -/

namespace Sys2Proof.Machine

/-! ## The state in which a request is served -/

@[simp] theorem awaiting_pending (s : State) (p : Port) (tag : Byte) (body : List Byte) :
    (awaiting s p tag body).pending = s.pending := rfl

@[simp] theorem awaiting_array (s : State) (p : Port) (tag : Byte) (body : List Byte) :
    (awaiting s p tag body).array = s.array := rfl

@[simp] theorem awaiting_clearLow (s : State) (p : Port) (tag : Byte) (body : List Byte) :
    (awaiting s p tag body).clearLow = s.clearLow := rfl

@[simp] theorem awaiting_csLow (s : State) (p : Port) (tag : Byte) (body : List Byte) :
    (awaiting s p tag body).csLow = s.csLow := rfl

@[simp] theorem awaiting_sessions (s : State) (p : Port) (tag : Byte) (body : List Byte) :
    (awaiting s p tag body).sessions = s.sessions := rfl

@[simp] theorem awaiting_dir (s : State) (p : Port) (tag : Byte) (body : List Byte) :
    (awaiting s p tag body).dir = s.dir := rfl

@[simp] theorem awaiting_queue (s : State) (p : Port) (tag : Byte) (body : List Byte) :
    (awaiting s p tag body).queue = s.queue := rfl

@[simp] theorem awaiting_engine (s : State) (p : Port) (tag : Byte) (body : List Byte) :
    (awaiting s p tag body).engine = s.engine := rfl

@[simp] theorem awaiting_results (s : State) (p : Port) (tag : Byte) (body : List Byte) :
    (awaiting s p tag body).results = s.results := rfl

@[simp] theorem awaiting_arbiters (s : State) (p : Port) (tag : Byte) (body : List Byte) :
    (awaiting s p tag body).arbiters = s.arbiters := rfl

@[simp] theorem awaiting_reads (s : State) (p : Port) (tag : Byte) (body : List Byte) :
    (awaiting s p tag body).reads = s.reads := rfl

@[simp] theorem awaiting_locks (s : State) (p : Port) (tag : Byte) (body : List Byte) :
    (awaiting s p tag body).locks = s.locks := rfl

@[simp] theorem awaiting_reports (s : State) (p : Port) (tag : Byte) (body : List Byte) :
    (awaiting s p tag body).reports = s.reports := rfl

@[simp] theorem awaiting_notices (s : State) (p : Port) (tag : Byte) (body : List Byte) :
    (awaiting s p tag body).notices = s.notices := rfl

@[simp] theorem awaiting_flags (s : State) (p : Port) (tag : Byte) (body : List Byte) :
    (awaiting s p tag body).flags = s.flags := rfl

@[simp] theorem awaiting_masks (s : State) (p : Port) (tag : Byte) (body : List Byte) :
    (awaiting s p tag body).masks = s.masks := rfl

@[simp] theorem awaiting_mount (s : State) (p : Port) (tag : Byte) (body : List Byte) :
    (awaiting s p tag body).mount = s.mount := rfl

@[simp] theorem awaiting_device (s : State) (p : Port) (tag : Byte) (body : List Byte) :
    (awaiting s p tag body).device = s.device := rfl

@[simp] theorem awaiting_rc (s : State) (p : Port) (tag : Byte) (body : List Byte) :
    (awaiting s p tag body).rc = s.rc := rfl

@[simp] theorem awaiting_port (s : State) (p : Port) (tag : Byte) (body : List Byte) :
    (awaiting s p tag body).ports.get p =
      { receiver := .idle, outcome := .accepted, inProgress := some tag, due := none, response := none,
        sdo := requestOut s p body } :=
  PerPort.get_set_self _ _ _

@[simp] theorem slotOf_awaiting (s : State) (p : Port) (tag : Byte) (body : List Byte) (r : RecNo) :
    slotOf (awaiting s p tag body) r = slotOf s r := rfl

@[simp] theorem lockOf_awaiting (s : State) (p : Port) (tag : Byte) (body : List Byte) (r : RecNo) :
    lockOf (awaiting s p tag body) r = lockOf s r := rfl

@[simp] theorem sessionOf_awaiting (s : State) (p q : Port) (tag : Byte) (body : List Byte) :
    sessionOf (awaiting s p tag body) q = sessionOf s q := rfl

/-- What a frame of five bytes and a body shifts out: the status byte, then 0xFF (R169). -/
theorem shifted_status (s : State) (p : Port) (body : List Byte) :
    shifted [statusByte s p] (5 + body.length) 0 = requestOut s p body := by
  simp only [shifted, requestOut, List.singleton_append, List.take_zero, FrameOut.mk.injEq, and_true]
  rw [show 5 + body.length = (4 + body.length) + 1 by omega, List.take_succ_cons, List.take_replicate]
  simp

/-! ## Frames (R166) -/

/-- What a port that begins to take frames makes of the chip select it finds. -/
theorem findChipSelect_eq (p : Port) (low : Bool) (s : State) :
    findChipSelect p low s =
      { s with csLow := s.csLow.set p low
               ports := s.ports.set p { s.ports.get p with receiver := if low then .ignoring else .idle } } := rfl

/-- The fall of chip select on a port that takes frames (R167, R175, R176). -/
theorem fallFrame_taken (p : Port) (s : State) (h : CanFrame s p) :
    fallFrame p s = { s with
      csLow := s.csLow.set p true
      ports := s.ports.set p { s.ports.get p with receiver := .receiving (snapshot s p) } } := by
  simp [fallFrame, h.1, h.2, setCs, setReceiver, setPort]

/-- The fall of chip select on a port that takes none. -/
theorem fallFrame_ignored (p : Port) (s : State) (h1 : framesTaken s p = false) (h2 : s.csLow.get p = false) :
    fallFrame p s = { s with
      csLow := s.csLow.set p true
      ports := s.ports.set p { s.ports.get p with receiver := .ignoring } } := by
  simp [fallFrame, h1, h2, setCs, setReceiver, setPort]

theorem endFrame_eq (p : Port) (s : State) :
    endFrame p s = { s with
      csLow := s.csLow.set p false
      ports := s.ports.set p { s.ports.get p with receiver := .idle } } := rfl

/-- The bits of a frame that the port takes. -/
theorem clockFrame_receiving (p : Port) (bytes : List Byte) (extra : Nat) (s : State) (f : FrameIn)
    (hf : (s.ports.get p).receiver = .receiving f) (h0 : f.bits = 0) (hn : frameBits bytes extra ≠ 0) :
    clockFrame p bytes extra s = { s with ports := s.ports.set p { s.ports.get p with
      receiver := .receiving { f with bits := frameBits bytes extra, bytes := bytes.take Config.maxFrame }
      sdo := shifted (frameStream f bytes) bytes.length extra } } := by
  simp [clockFrame, hf, h0, hn, setPort]

/-- Bits clocked outside a frame that the port takes. -/
theorem clockFrame_not_receiving (p : Port) (bytes : List Byte) (extra : Nat) (s : State)
    (hf : ∀ f, (s.ports.get p).receiver ≠ .receiving f) : clockFrame p bytes extra s = s := by
  unfold clockFrame
  cases h : (s.ports.get p).receiver with
  | receiving f => exact absurd h (hf f)
  | idle => rfl
  | ignoring => rfl

/-- The rise of chip select in a frame that holds the given bits: the frame is over and judged. -/
theorem riseFrame_judged (p : Port) (bytes : List Byte) (extra : Nat) (judge : State → State) (s : State) (f : FrameIn)
    (hc : s.csLow.get p = true) (hf : (s.ports.get p).receiver = .receiving f) (hn : frameBits bytes extra ≠ 0)
    (hb : f.bits = frameBits bytes extra) (hy : f.bytes = bytes.take Config.maxFrame) :
    riseFrame p bytes extra judge s = judge (endFrame p s) := by
  simp [riseFrame, hc, hf, hb, hy, hn]

/-- The rise of chip select in a frame that is ignored, or in which no bit was clocked: the frame is over. -/
theorem riseFrame_nothing (p : Port) (bytes : List Byte) (extra : Nat) (judge : State → State) (s : State)
    (hc : s.csLow.get p = true) (hf : ∀ f, (s.ports.get p).receiver = .receiving f → f.bits = 0) :
    riseFrame p bytes extra judge s = endFrame p s := by
  unfold riseFrame
  cases h : (s.ports.get p).receiver with
  | receiving f => simp [hc, hf f h]
  | idle => simp [hc]
  | ignoring => simp [hc]

/-- A line that is high does not rise. -/
theorem riseFrame_high (p : Port) (bytes : List Byte) (extra : Nat) (judge : State → State) (s : State)
    (hc : s.csLow.get p = false) : riseFrame p bytes extra judge s = s := by
  simp [riseFrame, hc]

/-- A whole frame on a port that takes it: the judgement, after the bits have gone through. -/
theorem takeFrame_taken (p : Port) (bytes : List Byte) (extra : Nat) (judge : State → State) (s : State)
    (h : CanFrame s p) (hn : frameBits bytes extra ≠ 0) :
    takeFrame p bytes extra judge .whole s = judge { s with ports := s.ports.set p { s.ports.get p with
      receiver := .idle, sdo := shifted (frameStream (snapshot s p) bytes) bytes.length extra } } := by
  have hcs : (s.csLow.set p true).set p false = s.csLow := by
    rw [PerPort.set_set, ← h.2, PerPort.set_get]
  simp only [takeFrame]
  rw [fallFrame_taken p s h]
  rw [clockFrame_receiving p bytes extra _ (snapshot s p) (by simp) rfl hn]
  rw [riseFrame_judged p bytes extra judge _ _ (by simp) (by simp; rfl) hn rfl rfl]
  simp [endFrame_eq, hcs]

/-- A whole frame with no bit clocked is no frame. -/
theorem takeFrame_no_bits (p : Port) (judge : State → State) (s : State) (h : CanFrame s p)
    (hr : (s.ports.get p).receiver = .idle) : takeFrame p [] 0 judge .whole s = s := by
  have hcs : (s.csLow.set p true).set p false = s.csLow := by
    rw [PerPort.set_set, ← h.2, PerPort.set_get]
  have hp : s.ports.set p { s.ports.get p with receiver := .idle } = s.ports := by
    rw [← hr, PerPort.set_get]
  simp only [takeFrame]
  rw [fallFrame_taken p s h]
  rw [show ∀ u, clockFrame p [] 0 u = u from fun u => by unfold clockFrame; split <;> simp [frameBits]]
  rw [riseFrame_nothing p [] 0 judge _ (by simp) (by simp [snapshot])]
  simp [endFrame_eq, hcs, hp]

/-- A whole frame on a port that takes none. -/
theorem takeFrame_held (p : Port) (bytes : List Byte) (extra : Nat) (judge : State → State) (s : State)
    (h1 : framesTaken s p = false) (h2 : s.csLow.get p = false) (hr : (s.ports.get p).receiver = .idle) :
    takeFrame p bytes extra judge .whole s = s := by
  have hcs : (s.csLow.set p true).set p false = s.csLow := by
    rw [PerPort.set_set, ← h2, PerPort.set_get]
  have hp : s.ports.set p { s.ports.get p with receiver := .idle } = s.ports := by
    rw [← hr, PerPort.set_get]
  simp only [takeFrame]
  rw [fallFrame_ignored p s h1 h2, clockFrame_not_receiving p bytes extra _ (by simp),
    riseFrame_nothing p bytes extra judge _ (by simp) (by simp)]
  simp [endFrame_eq, hcs, hp]

/-- A frame that the port ignores only ends. -/
theorem takeFrame_ignored (p : Port) (bytes : List Byte) (extra : Nat) (judge : State → State) (s : State)
    (h : s.csLow.get p = true) (hr : (s.ports.get p).receiver = .ignoring) :
    takeFrame p bytes extra judge .whole s = endFrame p s := by
  have hf : fallFrame p s = s := by simp [fallFrame, h]
  simp only [takeFrame, hf]
  rw [clockFrame_not_receiving p bytes extra _ (by simp [hr]), riseFrame_nothing p bytes extra judge _ h (by simp [hr])]

theorem requestFrameBytes_length (c : RequestCode) (tag : Byte) (body : List Byte) :
    (requestFrameBytes c tag body).length = 5 + body.length := by
  simp [requestFrameBytes, requestHead]
  omega

theorem frameBits_request (c : RequestCode) (tag : Byte) (body : List Byte) :
    frameBits (requestFrameBytes c tag body) 0 ≠ 0 := by
  simp [frameBits, requestFrameBytes_length]

/-- A frame of 252 body bytes fits the receiver. -/
theorem take_requestFrameBytes (c : RequestCode) (tag : Byte) (body : List Byte) (h : body.length ≤ 252) :
    (requestFrameBytes c tag body).take Config.maxFrame = requestFrameBytes c tag body := by
  apply List.take_of_length_le
  rw [requestFrameBytes_length]
  simp only [Config.maxFrame]
  omega

/-- What a REQUEST frame calls for (R169). -/
theorem frameStream_request (f : FrameIn) (c : RequestCode) (tag : Byte) (body : List Byte) :
    frameStream f (requestFrameBytes c tag body) = [f.status] := by
  simp [frameStream, requestFrameBytes, requestHead]

/-! ## Acceptance (R170) -/

/-- A request that a port can take is served with its port awaiting the response, and the response is written. -/
theorem takeRequest_accepted (c : RequestCode) (p : Port) (tag : Byte) (body : List Byte) (serve : State → State)
    (s : State) (h : CanRequest s p) (hb : body.length ≤ 252) :
    takeRequest c p tag body .whole serve s = writeReply p (serve (awaiting s p tag body)) := by
  obtain ⟨h1, h3⟩ := h
  have hn : ¬ Config.maxBody < body.length := by simp only [Config.maxBody]; omega
  simp only [takeRequest, h3]
  rw [takeFrame_taken p _ 0 _ s h1 (frameBits_request c tag body)]
  rw [frameStream_request, requestFrameBytes_length,
    show shifted [(snapshot s p).status] (5 + body.length) 0 = requestOut s p body from shifted_status s p body]
  simp [judgeRequest, hn, h3, acceptRequest, setPort, awaiting]

/-- A request on a port with one in progress is BUSY. -/
theorem takeRequest_busy (c : RequestCode) (p : Port) (tag : Byte) (body : List Byte) (serve : State → State)
    (s : State) (h1 : CanFrame s p) (h3 : (s.ports.get p).inProgress ≠ none) (hb : body.length ≤ 252) :
    takeRequest c p tag body .whole serve s =
      { s with ports := s.ports.set p { s.ports.get p with
          receiver := .idle, outcome := .busy, sdo := requestOut s p body } } := by
  have hn : ¬ Config.maxBody < body.length := by simp only [Config.maxBody]; omega
  have h4 : (s.ports.get p).inProgress.isSome = true := Option.isSome_iff_ne_none.mpr h3
  simp only [takeRequest, h4]
  rw [takeFrame_taken p _ 0 _ s h1 (frameBits_request c tag body)]
  rw [frameStream_request, requestFrameBytes_length,
    show shifted [(snapshot s p).status] (5 + body.length) 0 = requestOut s p body from shifted_status s p body]
  simp [judgeRequest, hn, h4, recordOutcome, setPort]

/-! ## Responses (R171, R173) -/

/-- The response to a request in progress is decided. -/
theorem respond_inProgress (p : Port) (tag : Byte) (c : ResultCode) (b : List Byte) (s : State)
    (h : (s.ports.get p).inProgress = some tag) :
    respond p c b s = { s with ports := s.ports.set p { s.ports.get p with due := some ⟨tag, c, b⟩ } } := by
  simp [respond, h, setPort]

/-- Without a request in progress none is (R174). -/
theorem respond_idle (p : Port) (c : ResultCode) (b : List Byte) (s : State)
    (h : (s.ports.get p).inProgress = none) : respond p c b s = s := by
  simp [respond, h]

/-- A response that is due is written. -/
theorem writeReply_due (p : Port) (tag : Byte) (r : Response) (s : State) (h : (s.ports.get p).inProgress = some tag)
    (hd : (s.ports.get p).due = some r) :
    writeReply p s = { s with ports := s.ports.set p { s.ports.get p with
      inProgress := none, due := none, response := some r } } := by
  simp [writeReply, h, hd, setPort]

/-- Before a response is decided nothing is written. -/
theorem writeReply_none (p : Port) (s : State) (h : (s.ports.get p).due = none) : writeReply p s = s := by
  unfold writeReply
  rw [h]
  split
  · contradiction
  · rfl

/-- Without a request in progress nothing is written (R174). -/
theorem writeReply_idle (p : Port) (s : State) (h : (s.ports.get p).inProgress = none) : writeReply p s = s := by
  simp [writeReply, h]

/-- A response decided and written in one step. -/
theorem answer_inProgress (p : Port) (tag : Byte) (c : ResultCode) (b : List Byte) (s : State)
    (h : (s.ports.get p).inProgress = some tag) :
    answer p c b s = { s with ports := withResponse s p tag c b } := by
  unfold answer
  rw [respond_inProgress p tag c b s h, writeReply_due p tag ⟨tag, c, b⟩ _ (by simp [h]) (by simp)]
  simp [withResponse]

theorem answer_idle (p : Port) (c : ResultCode) (b : List Byte) (s : State)
    (h : (s.ports.get p).inProgress = none) : answer p c b s = s := by
  unfold answer
  rw [respond_idle p c b s h, writeReply_idle p s h]

/-- The response to a request whose service left the ports alone: `answered`, on top of what the service changed. -/
theorem respond_awaiting (p : Port) (tag : Byte) (body : List Byte) (c : ResultCode) (b : List Byte) (s u : State)
    (h : u.ports = (awaiting s p tag body).ports) :
    writeReply p (respond p c b u) = { u with ports := (answered s p tag body c b).ports } := by
  have hp : (u.ports.get p).inProgress = some tag := by rw [h]; simp
  have := answer_inProgress p tag c b u hp
  unfold answer at this
  rw [this]
  simp [withResponse, h, awaiting, answered]

/-- The same where the service changed nothing. -/
@[simp] theorem respond_awaiting_self (p : Port) (tag : Byte) (body : List Byte) (c : ResultCode) (b : List Byte)
    (s : State) : writeReply p (respond p c b (awaiting s p tag body)) = answered s p tag body c b := by
  rw [respond_awaiting p tag body c b s _ rfl]
  rfl

@[simp] theorem refuse_awaiting_self (p : Port) (tag : Byte) (body : List Byte) (c : ResultCode) (s : State) :
    writeReply p (refuse p c (awaiting s p tag body)) = answered s p tag body c [] :=
  respond_awaiting_self p tag body c [] s

/-- A service that left its port awaiting has no response to write: the request goes on (R103). -/
theorem writeReply_awaiting (p : Port) (tag : Byte) (body : List Byte) (s u : State)
    (h : u.ports = (awaiting s p tag body).ports) : writeReply p u = u :=
  writeReply_none p u (by rw [h]; simp)

/-! ## Operand forms (R181) -/

theorem recByte_toNat (r : RecNo) : (recByte r).toNat = r.val := by
  have := r.isLt
  simp only [recByte, BitVec.toNat_ofNat]
  omega

@[simp] theorem recordOfByte_recByte (r : RecNo) : recordOfByte (recByte r) = some r := by
  have h : (recByte r).toNat < 128 := by rw [recByte_toNat]; exact r.isLt
  unfold recordOfByte
  rw [dif_pos h]
  exact congrArg some (Fin.ext (recByte_toNat r))

theorem recordOfByte_none (b : Byte) : recordOfByte b = none ↔ 128 ≤ b.toNat := by
  unfold recordOfByte
  split
  · rename_i h
    simp only [reduceCtorEq, false_iff]
    omega
  · rename_i h
    simp only [true_iff]
    omega

@[simp] theorem portSetOfByte_portSetByte (x : PortSet) : portSetOfByte (portSetByte x) = some x := by
  obtain ⟨a, b, c, d⟩ := x
  revert a b c d
  decide

@[simp] theorem guardedOfByte_boolByte (g : Bool) : guardedOfByte (boolByte g) = some g := by
  cases g <;> decide

theorem genBytes_genOfBytes (lo hi : Byte) : genBytes (genOfBytes lo hi) = [lo, hi] := by
  simp only [genBytes, genOfBytes, List.cons.injEq, and_true]
  constructor
  · apply BitVec.eq_of_getLsbD_eq
    intro i h
    simp [h]
  · apply BitVec.eq_of_getLsbD_eq
    intro i h
    have h1 : 8 + i < 16 := by omega
    simp [h, h1]

theorem genOfBytes_genBytes (g : Gen) : genOfBytes (g.setWidth 8) ((g >>> 8).setWidth 8) = g := by
  apply BitVec.eq_of_getLsbD_eq
  intro i hi
  simp only [genOfBytes]
  by_cases h : i < 8
  · simp [h, hi]
  · have h1 : 8 + (i - 8) = i := by omega
    have h2 : i - 8 < 8 := by omega
    simp [h, h1, h2, hi]

theorem pageOfBytes_ofNat (n : Nat) (h : n ≤ 65535) :
    pageOfBytes (BitVec.ofNat 8 n) (BitVec.ofNat 8 (n / 256)) = n := by
  simp only [pageOfBytes, genOfBytes]
  rw [BitVec.toNat_or, BitVec.toNat_shiftLeft, BitVec.toNat_setWidth, BitVec.toNat_setWidth, BitVec.toNat_ofNat,
    BitVec.toNat_ofNat, Nat.shiftLeft_eq]
  have h1 : n / 256 % 2 ^ 8 % 2 ^ 16 * 2 ^ 8 % 2 ^ 16 = (n / 256) <<< 8 := by rw [Nat.shiftLeft_eq]; omega
  have h2 : n % 2 ^ 8 % 2 ^ 16 = n % 256 := by omega
  rw [h1, h2, ← Nat.shiftLeft_add_eq_or_of_lt (by omega : n % 256 < 2 ^ 8), Nat.shiftLeft_eq]
  omega

end Sys2Proof.Machine
end

