-- ==== Sys2Proof/Laws/Engine.lean ====
section
/-! SUPPORT. What the shared operations of the tables, the page steps, the arbiters, the notice queues and the end of an
entry do, each said once. -/

namespace Sys2Proof.Machine

open Sys2Proof

/-! ## Fields, extents and tables -/

/-- A number as a two-byte field (13). -/
theorem genBytes_ofNat (n : Nat) : genBytes (BitVec.ofNat 16 n) = [BitVec.ofNat 8 n, BitVec.ofNat 8 (n / 256)] := by
  simp only [genBytes, List.cons.injEq, and_true]
  constructor <;> apply BitVec.eq_of_toNat_eq <;> simp [Nat.shiftRight_eq_div_pow]
  all_goals omega

@[simp] theorem natByte_toNat (b : Byte) : natByte b.toNat = b := by simp [natByte]

theorem emptyBody_none (body : List Byte) (h : body ≠ []) : emptyBody body = none := by
  cases body with
  | nil => exact absurd rfl h
  | cons _ _ => rfl

theorem modeOfByte_none (m : Byte) : modeOfByte m = none ↔ 2 ≤ m.toNat := by
  revert m
  decide

/-- Every extent has a page (R2). -/
theorem extentPages_pos (n : Nat) : 1 ≤ extentPages n := by
  unfold extentPages
  omega

theorem byteAt_readExtent (m : Mem) (pl : Plane) (b n i : Nat) (h : i < 32 * n) :
    byteAt (readExtent m pl b n) i = memRead m (pageAddress pl b + i) := by
  simp [byteAt, readExtent, memReadBytes, h]

/-- A stretch of what was read is a read of the stretch. -/
theorem take_drop_memReadBytes (m : Mem) (a n k l : Nat) (h : k + l ≤ n) :
    ((memReadBytes m a n).drop k).take l = memReadBytes m (a + k) l := by
  apply List.ext_getElem
  · simp [memReadBytes]
    omega
  · intro i h1 h2
    simp [memReadBytes, Nat.add_assoc]

theorem waitsAnywhere_iff (s : State) (p : Port) :
    waitsAnywhere s p = true ↔ ∃ r, waitsOn (lockOf s r) p = true := by
  simp only [waitsAnywhere, List.any_eq_true]
  constructor
  · rintro ⟨l, hl, hw⟩
    obtain ⟨r, rfl⟩ := (Table.mem_cells_iff _ _).mp hl
    exact ⟨r, hw⟩
  · rintro ⟨r, hw⟩
    exact ⟨_, (Table.mem_cells_iff _ _).mpr ⟨r, rfl⟩, hw⟩

theorem anyDefined_iff (s : State) : anyDefined s = true ↔ ∃ r, (slotOf s r).entry ≠ none := by
  simp only [anyDefined, List.any_eq_true]
  constructor
  · rintro ⟨l, hl, hw⟩
    obtain ⟨r, rfl⟩ := (Table.mem_cells_iff _ _).mp hl
    exact ⟨r, Option.isSome_iff_ne_none.mp hw⟩
  · rintro ⟨r, hw⟩
    exact ⟨_, (Table.mem_cells_iff _ _).mpr ⟨r, rfl⟩, Option.isSome_iff_ne_none.mpr hw⟩

theorem overlapsDefined_iff (s : State) (e : LayoutEntry) :
    overlapsDefined s e = true ↔ ∃ r, entriesOverlap (some e) (slotOf s r).entry = true := by
  simp only [overlapsDefined, List.any_eq_true]
  constructor
  · rintro ⟨l, hl, hw⟩
    obtain ⟨r, rfl⟩ := (Table.mem_cells_iff _ _).mp hl
    exact ⟨r, hw⟩
  · rintro ⟨r, hw⟩
    exact ⟨_, (Table.mem_cells_iff _ _).mpr ⟨r, rfl⟩, hw⟩

/-- Two extents overlap exactly where they share a page number (R24). -/
theorem extentsOverlap_iff (b1 n1 b2 n2 : Nat) (h1 : 1 ≤ n1) (h2 : 1 ≤ n2) :
    extentsOverlap b1 n1 b2 n2 = true ↔
      ∃ page, b1 ≤ page ∧ page < b1 + n1 ∧ b2 ≤ page ∧ page < b2 + n2 := by
  simp only [extentsOverlap, Bool.and_eq_true, decide_eq_true_eq]
  constructor
  · rintro ⟨a, b⟩
    exact ⟨max b1 b2, by omega, by omega, by omega, by omega⟩
  · rintro ⟨p, a, b, c, d⟩
    omega

/-! ## Page steps (R20, R21) -/

/-- An erase attempt clears no bit. -/
theorem eraseAttempt_keeps (old raised : PageBytes) (i : Fin 32) :
    (eraseAttempt old raised).get i ||| old.get i = (eraseAttempt old raised).get i := by
  have or_full : ∀ a b : Byte, (a ||| b) ||| a = a ||| b := fun a b => by
    rw [BitVec.or_assoc, BitVec.or_comm b a, ← BitVec.or_assoc, BitVec.or_self]
  unfold eraseAttempt
  simp only
  split
  · simp [or_full]
  · rw [Table.get_set]
    split
    · subst_vars
      simp [or_full]
    · simp

/-- A program attempt sets no bit. -/
theorem programAttempt_and_old (old new cleared : PageBytes) (i : Fin 32) :
    (programAttempt old new cleared).get i &&& old.get i = (programAttempt old new cleared).get i := by
  have key : ∀ o t c : Byte, o &&& (t ||| ~~~c) &&& o = o &&& (t ||| ~~~c) := fun o t c => by
    rw [BitVec.and_assoc, BitVec.and_comm _ o, ← BitVec.and_assoc, BitVec.and_self]
  unfold programAttempt
  simp only
  split
  · simp only [Table.get_zipWith, key]
  · rw [Table.get_set]
    split
    · subst_vars
      simp
    · simp only [Table.get_zipWith, key]

/-- A program attempt clears no bit that the new content has at 1. -/
theorem programAttempt_keeps_ones (old new cleared : PageBytes) (i : Fin 32) :
    old.get i &&& new.get i &&& (programAttempt old new cleared).get i = old.get i &&& new.get i := by
  unfold programAttempt programTarget
  simp only
  split
  · simp only [Table.get_zipWith]
    apply BitVec.eq_of_getLsbD_eq
    intro k hk
    simp
    intro a b
    simp [a, b]
  · rw [Table.get_set]
    split
    · subst_vars
      apply BitVec.eq_of_getLsbD_eq
      intro k hk
      simp
      intro a b
      simp [a]
    · simp only [Table.get_zipWith]
      apply BitVec.eq_of_getLsbD_eq
      intro k hk
      simp
      intro a b
      simp [a, b]

theorem get_eq_of_tail_eq (x y : PageBytes) (h : x.cells.tail = y.cells.tail) (i : Fin 32) (hi : i ≠ 0) :
    x.get i = y.get i := by
  obtain ⟨a, ha⟩ := x
  obtain ⟨b, hb⟩ := y
  cases a with
  | nil => simp at ha
  | cons a as =>
    cases b with
    | nil => simp at hb
    | cons b bs =>
      simp at h
      subst h
      obtain ⟨i, hi'⟩ := i
      cases i with
      | zero => exact absurd rfl hi
      | succ i => rfl

/-- Where a program attempt changed byte 0, every other byte is done. -/
theorem programAttempt_done_before_byte0 (old new cleared : PageBytes)
    (h : (programAttempt old new cleared).get 0 ≠ old.get 0) (i : Fin 32) (hi : i ≠ 0) :
    (programAttempt old new cleared).get i = old.get i &&& new.get i := by
  rw [get_eq_of_tail_eq _ _ (programAttempt_byte0_last _ _ _ h) i hi]
  simp [programTarget]

theorem leavePage_eq (pl : Plane) (page : Nat) (x : PageBytes) (s : State) :
    leavePage pl page x s = endTenure pl { s with array := writePage s.array pl page x } := rfl

/-! ## Arbiters (R34, R36) -/

/-- The end of a tenure leaves every read as it was, or takes it to READING. -/
theorem endTenure_reads (pl : Plane) (s : State) (q : Port) :
    (endTenure pl s).reads.get q = s.reads.get q ∨
      (endTenure pl s).reads.get q = (s.reads.get q).map fun rd => { rd with phase := .reading } := by
  simp only [endTenure]
  split
  · rename_i p hp
    by_cases hq : q = p
    · subst hq
      right
      simp [grantRead, setRead, setArbiter]
    · left
      simp [grantRead, setRead, setArbiter, hq]
  · split <;> exact .inl rfl

/-- After a port's move, its waiting read of the record stands at the new plane. -/
theorem moveRead_reads (r : RecNo) (c : Plane) (p q : Port) (s : State) :
    (moveRead r c p s).reads.get q =
      if q = p then
        (s.reads.get p).map fun rd => if rd.record = r ∧ rd.phase = .waiting then { rd with plane := c } else rd
      else s.reads.get q := by
  simp only [moveRead]
  by_cases hq : q = p
  · subst hq
    cases h : s.reads.get q with
    | none => simp [h]
    | some rd =>
      simp only [Option.map_some, if_true]
      split
      · rename_i hc
        simp [setRead, hc.1, hc.2.1]
      · rename_i hc
        rw [h]
        split
        · rename_i hc'
          have : rd.plane = c := by
            by_contra hne
            exact hc ⟨hc'.1, hc'.2, hne⟩
          rw [← this]
        · rfl
  · simp only [hq, if_false]
    split
    · split
      · simp [setRead, hq, setArbiter]
      · rfl
    · rfl

/-- After the move every waiting read of the record stands at the new plane (R36). -/
theorem moveReads_plane (r : RecNo) (c : Plane) (s : State) (q : Port) (rd : Read)
    (h : (moveReads r c s).reads.get q = some rd) (hr : rd.record = r) (hw : rd.phase = .waiting) : rd.plane = c := by
  have key : ∀ q rd, (forPorts (moveRead r c) s).reads.get q = some rd → rd.record = r → rd.phase = .waiting →
      rd.plane = c := by
    intro q rd h hr hw
    simp only [forPorts, moveRead_reads] at h
    cases q <;> simp at h <;> obtain ⟨a, _, rfl⟩ := h <;> split at hr <;> simp_all
  simp only [moveReads] at h
  split at h
  · rcases endTenure_reads c (forPorts (moveRead r c) s) q with h' | h'
    · rw [h'] at h
      exact key q rd h hr hw
    · rw [h'] at h
      simp at h
      obtain ⟨a, _, rfl⟩ := h
      simp at hw
  · exact key q rd h hr hw

/-! ## Starts and ends of entries (R64, R71, R72, R138) -/

/-- The gate of R64, open. -/
theorem startAllowed_of (s : State) (e : Entry) (rest : List Entry) (h1 : s.engine.state = .idle)
    (h2 : s.rc.warning = false) (h3 : s.rc.restartPending = false) (hq : s.queue = e :: rest)
    (hd : s.device = .ready ∨ (e.work = .layout .format ∧ s.device ≠ .mounting)) : startAllowed s = true := by
  simp only [startAllowed, h1, h2, h3, hq]
  rcases hd with hd | ⟨hw, hd⟩
  · simp [hd]
  · cases h : s.device <;> simp_all

/-- What the end of an entry hands out (R71, R72, R75). -/
theorem handOutEnd_eq (e : Entry) (x : CommitResult) (s : State) :
    handOutEnd e x s = { s with
      results := if s.engine.detached then s.results else s.results.set e.port (some x)
      sessions := if s.engine.detached then s.sessions else s.sessions.set e.port Session.reset
      flags := if s.engine.detached then s.flags
        else s.flags.set e.port { s.flags.get e.port with commitDone := true } } := by
  cases h : s.engine.detached <;> simp only [handOutEnd, h] <;> rfl

/-- A RECORD entry that ends without completing (R72). -/
theorem failRecord_eq (e : Entry) (r : RecNo) (code : ResultCode) (s : State) :
    failRecord e r code s = { s with
      engine := Engine.reset
      results := if s.engine.detached then s.results else s.results.set e.port
        (some { record := some r, kind := .record, result := code, generation := (slotOf s r).content.generation })
      sessions := if s.engine.detached then s.sessions else s.sessions.set e.port Session.reset
      flags := if s.engine.detached then s.flags
        else s.flags.set e.port { s.flags.get e.port with commitDone := true } } := by
  cases h : s.engine.detached <;> simp only [failRecord, handOutEnd, h, engineIdle] <;> rfl

theorem undoEntry_eq (p : Port) (op : LayoutOp) (s : State) :
    undoEntry ⟨p, .layout op⟩ s = { s with
      dir := match op with
        | .delete r => { s.dir with slots := s.dir.slots.set r { slotOf s r with deletePending := false } }
        | _ => s.dir } := by
  cases op <;> rfl

/-- A LAYOUT entry that ends without completing (R138). -/
theorem failLayout_eq (p : Port) (op : LayoutOp) (code : ResultCode) (s : State) :
    failLayout ⟨p, .layout op⟩ code s = { s with
      engine := Engine.reset
      dir := match op with
        | .delete r => { s.dir with slots := s.dir.slots.set r { slotOf s r with deletePending := false } }
        | _ => s.dir
      results := if s.engine.detached then s.results else s.results.set p
        (some { record := Work.record? (.layout op), kind := Work.kind (.layout op), result := code
                generation := layoutGeneration s })
      sessions := if s.engine.detached then s.sessions else s.sessions.set p Session.reset
      flags := if s.engine.detached then s.flags
        else s.flags.set p { s.flags.get p with commitDone := true } } := by
  have hg : layoutGeneration (undoEntry ⟨p, .layout op⟩ s) = layoutGeneration s := by cases op <;> rfl
  have hd : (undoEntry ⟨p, .layout op⟩ s).engine.detached = s.engine.detached := by cases op <;> rfl
  simp only [failLayout, handOutEnd, hd, hg]
  cases h : s.engine.detached <;> simp only [engineIdle, undoEntry_eq] <;> cases op <;> rfl

/-! ## Locks (R88) -/

/-- The hand-on, lock by lock (R88). -/
theorem lockOf_handOn (r r' : RecNo) (s : State) :
    lockOf (handOn r s) r' =
      if r = r' then
        match (lockOf s r).waits with
        | [] => Lock.free
        | w :: ws => ⟨some w.port, w.lease, false, ws⟩
      else lockOf s r' := by
  cases h : (lockOf s r).waits <;> simp only [handOn, h] <;> exact lockOf_setLock _ _ _ _

end Sys2Proof.Machine
end

