-- ==== Sys2Proof/Tests/Slice0.lean ====
section
/-! SUPPORT. The model's own tests: an ill-formed command for each check of `Instr.wf`, the check values of 13, single
steps of one command each, and for every statement with hypotheses a state and operands that meet them, clause by
clause at the boundary values. -/

namespace Sys2Proof.Tests

open Sys2Proof Sys2Proof.Machine

set_option Elab.async false

/-! ## Well-formedness: each check refuses its ill-formed term -/

theorem test_wf_body_too_long :
    (Instr.nop .a 0 (List.replicate 253 0)).wf = false ∧ (Instr.nop .a 0 (List.replicate 252 0)).wf = true := by
  decide +kernel

theorem test_wf_frame_error_without_a_bit :
    (Instr.frameError .a [] 0).wf = false ∧ (Instr.frameError .a [] 1).wf = true := by decide

theorem test_wf_frame_error_with_eight_further_bits :
    (Instr.frameError .a [0] 8).wf = false ∧ (Instr.frameError .a [0] 7).wf = true := by decide

theorem test_wf_only_a_request_is_replied_to :
    (Instr.fetch .a [] .reply).wf = false ∧ (Instr.poll .a [] .reply).wf = false ∧
    (Instr.frameError .a [0] 7 .reply).wf = false ∧ (Instr.nop .a 0 [] .reply).wf = true := by decide

/-! ## Check values (13) and frames -/

/-- The ASCII bytes "123456789". -/
def nineDigits : List Byte := [0x31, 0x32, 0x33, 0x34, 0x35, 0x36, 0x37, 0x38, 0x39]

theorem test_crc16_check_value : crc16 nineDigits = 0x29B1 := by decide +kernel

theorem test_crc8_check_value : crc8 nineDigits = 0xF4 := by decide +kernel

theorem test_nop_frame_is_the_five_bytes :
    encodeFrame (.nop .a 0 []) = some (.a, [0xA1, 0x00, 0x00, 0x00, 0xE9], 0) ∧
    decodeFrame .a [0xA1, 0x00, 0x00, 0x00, 0xE9] 0 = some (.nop .a 0 []) := by decide +kernel

theorem test_nop_frame_with_a_wrong_crc_is_a_frame_error :
    decodeFrame .a [0xA1, 0x00, 0x00, 0x00, 0xE8] 0 = some (.frameError .a [0xA1, 0x00, 0x00, 0x00, 0xE8] 0) := by
  decide +kernel

theorem test_the_bytes_after_a_type_are_kept :
    encodeFrame (.fetch .a [0x55, 0xAA]) = some (.a, [0xA2, 0x55, 0xAA], 0) ∧
    decodeFrame .a [0xA2, 0x55, 0xAA] 0 = some (.fetch .a [0x55, 0xAA]) ∧
    decodeFrame .d [0xA3, 0x01] 0 = some (.poll .d [0x01]) := by decide +kernel

theorem test_unknown_code_is_a_frame_error :
    frameVerdict (0xA1 :: 0x05 :: 0 :: 0 :: [crc8 [0xA1, 0x05, 0, 0]]) 0 = .frameError := by decide +kernel

theorem test_no_table_word_spells_a_command : decodeTableWord 8 0 = none ∧ decodeTableWord 32 5 = none := by decide

/-! ## Helper states -/

/-- READY, no supply warning, a layout with no record defined, port A administrative. -/
def ready : State :=
  { State.reset with
    device := .ready
    dir := { Directory.reset with layout := some ⟨.p0, 1⟩ }
    rc := { ResetControl.reset with warning := false } }

/-- A record of 24 bytes, one page, at page 100, every port in both sets. -/
def rec24 : LayoutEntry :=
  { length := 24, basePage := 100, readSet := PerPort.all true, writeSet := PerPort.all true, guarded := false }

def slotWith (e : LayoutEntry) (c : Content) : Slot :=
  { entry := some e, content := c, watch := PortSet.empty, deletePending := false }

/-- READY with record 5 as given. -/
def with5 (e : LayoutEntry) (c : Content) : State := setSlot 5 (slotWith e c) ready

/-- READY with record 5 VALID in plane 0 at generation 3. -/
def valid5 : State := with5 rec24 (.valid .p0 3)

/-- READY with record 5 VALID and its DELETE pending. -/
def pending5 : State := setSlot 5 { slotWith rec24 (.valid .p0 3) with deletePending := true } ready

def warned (s : State) : State := { s with rc := { s.rc with warning := true } }

def restarting (s : State) : State := { s with rc := { s.rc with restartPending := true } }

def held (s : State) (x : Sources) : State := { s with rc := { s.rc with sources := x } }

def inState (s : State) (d : DeviceState) : State := { s with device := d }

/-- Port A's session on record 5 in a state, at a fill pointer. -/
def onRecord5 (st : SessionState) (fill : Nat) (excess : Bool) (s : State) : State :=
  setSession .a { state := st, record := some 5, baseGen := 3, fill := fill, overrun := excess, buffer := emptyBuffer } s

def lock5 (l : Lock) (s : State) : State := setLock 5 l s

/-- Record 5 held by B, with C waiting. -/
def heldByB : Lock := { holder := some .b, lease := 1, leaseDue := true, waits := [⟨.c, 1, 255, true⟩] }

def inProgress (p : Port) (tag : Byte) (s : State) : State := setPort p { PortIf.reset with inProgress := some tag } s

/-- Port A's chip select is low, in a frame that the port ignores. -/
def ignoring (s : State) : State := setCs .a true (setReceiver .a .ignoring s)

/-- Port A's chip select is low, in a frame that the port takes, with so much of it come in. -/
def inFrame (f : FrameIn) (s : State) : State := setCs .a true (setReceiver .a (.receiving f) s)

/-- Frame content after its fall: the status byte with a request in progress, which had tag 7. -/
def fallen : FrameIn := { status := 0xA2, slot := none, tag := 7, flags := Flags.clear, bits := 0, bytes := [] }

/-- A request in progress at port A with its response decided. -/
def replyDue (s : State) : State :=
  setPort .a { PortIf.reset with inProgress := some 7, due := some ⟨7, .ok, [9]⟩ } s

/-- Port A's clear line is low. -/
def cleared (s : State) : State := { s with clearLow := ⟨true, false, false, false⟩ }

/-- A read of record 5 by port A, on plane 0. -/
def readOf (k : ReadKind) (ph : ReadPhase) (inUse : Bool) (base : Nat) : Read :=
  { kind := k, record := 5, basePage := base, length := 24, plane := .p0, phase := ph, inUse := inUse }

/-- Port A's read holds plane 0. -/
def reading (k : ReadKind) (inUse : Bool) (base : Nat) : State :=
  inProgress .a 1 (setRead .a (some (readOf k .reading inUse base))
    (setArbiter .p0 { Arbiter.reset with holder := .read .a } valid5))

def holding (h : Holder) (w : PortSet) (e : Bool) : State :=
  setArbiter .p0 { Arbiter.reset with holder := h, waiting := w, engineWaiting := e } valid5

/-- The engine at a step of an entry, holding plane 1, its target. -/
def engineAt (e : Entry) (st : EngineStep) (attempt base : Nat) (b : EngineBuffer) (s : State) : State :=
  setArbiter .p1 { Arbiter.reset with holder := .engine }
    (setEngine { state := phaseState st.phase, entry := some e, detached := false, target := some .p1, newGen := 4,
                 step := some st, attempt := attempt, buffer := b, basePage := base, length := 24 } s)

def record5 : Entry := ⟨.a, .record 5 .any 3⟩

def dataBuffer : EngineBuffer := .data emptyBuffer

def at5 (ph : Phase) (k m attempt base : Nat) : State := engineAt record5 ⟨ph, k, m⟩ attempt base dataBuffer valid5

/-- 800 bytes in the engine buffer. -/
def anImage : EngineBuffer := .image (Table.ofList 800 0xFF [0x5A, 0x01])

def layoutAt (op : LayoutOp) (ph : Phase) (k : Nat) : State := engineAt ⟨.a, .layout op⟩ ⟨ph, k, 25⟩ 3 0 anImage valid5

def noBits : PageBytes := Table.fill 32 0

def allBits : PageBytes := Table.fill 32 0xFF

/-- One byte of plane 1's page 100 that an erase has to raise. -/
def dirty (s : State) : State := { s with array := [(68736, 0)] }

/-! ## Single steps -/

/-- A command's outcome is this next state. -/
def nextIs (o : Host.Outcome State Fault Refusal) (t : State) : Bool :=
  match o with
  | .next u => decide (u = t)
  | _ => false

theorem test_reset_idles :
    nextIs (step State.reset)
      State.reset = true := by decide +kernel

theorem test_nop_in_mounting_is_not_ready :
    nextIs (exec (.nop .b 7 [1, 2]) State.reset)
      (answered State.reset .b 7 [1, 2] .notReady []) = true := by decide +kernel

theorem test_nop_in_ready_echoes :
    nextIs (exec (.nop .b 7 [1, 2]) ready)
      (answered ready .b 7 [1, 2] .ok [1, 2]) = true := by decide +kernel

theorem test_device_status_right_after_reset :
    nextIs (exec (.deviceStatus .a 0 []) State.reset)
      (answered State.reset .a 0 [] .ok
      [0, 0, 1, 0, 0, 0, 0, 0xFF, 0, 0xFF, 0xFF, 0xFF, 0, 0]) = true := by decide +kernel

theorem test_mount_of_a_blank_part_ends_unformatted :
    nextIs (exec .mountLayoutSelected (setMount .layout State.reset))
      (endMount .unformatted State.reset) = true := by decide +kernel

theorem test_commit_with_the_warning_present_is_refused_power :
    nextIs (exec (.commit .a 1 [0]) (warned (onRecord5 .staging 24 false valid5)))
      (answered (warned (onRecord5 .staging 24 false valid5)) .a 1 [0] .power []) = true := by decide +kernel

theorem test_define_past_the_array_is_refused_range :
    nextIs (exec (.define .a 1 [5, 25, 0xFF, 0x07, 15, 15, 0]) ready)
      (answered ready .a 1 [5, 25, 0xFF, 0x07, 15, 15, 0] .range []) = true := by decide +kernel

theorem test_erase_attempt_without_change_is_repeated :
    nextIs (exec (.eraseAttemptDone noBits) (dirty (at5 .erase 1 1 1 100)))
      (dirty (at5 .erase 1 1 2 100)) = true := by decide +kernel

theorem test_program_of_byte_0_alone_leaves_the_page :
    programAttempt erasedPage noBits (noBits.set 0 0xFF) = erasedPage := by decide +kernel

theorem test_erase_short_of_byte_0_changes_byte_0_alone :
    (eraseAttempt noBits ((Table.fill 32 0xFF).set 0 0x7F)) = noBits.set 0 0x7F := by decide +kernel

theorem test_warning_present_at_the_release_is_held :
    nextIs (exec (.resetRelease 0 PortSet.empty) (warned (held ready ⟨some .powerOn, false, false⟩)))
      { ready with rc := { ready.rc with warning := true, held := true } } = true := by decide +kernel

theorem test_warning_removed_before_mount_starts_stays_held :
    nextIs (exec .supplyWarningRemoved State.reset)
      { State.reset with rc := { State.reset.rc with warning := false } } = true := by decide +kernel

theorem test_ignored_frame_without_a_bit_ends :
    nextIs (exec (.poll .a [] .rise) (ignoring ready)) ready = true := by decide +kernel

theorem test_request_in_progress_at_the_fall_shows_after_its_response :
    nextIs (exec (.poll .a [0x55, 0xAA] .clock) (inFrame fallen ready))
      (setPort .a { PortIf.reset with
        receiver := .receiving { fallen with bits := 24, bytes := [0xA3, 0x55, 0xAA] }
        sdo := ⟨[0xA2, 0, 0], []⟩ } (setCs .a true ready)) = true := by decide +kernel

theorem test_response_is_written_between_two_frames :
    nextIs (exec (.nop .a 7 [] .reply) (replyDue ready))
      (setPort .a { PortIf.reset with response := some ⟨7, .ok, [9]⟩ } ready) = true := by decide +kernel

theorem test_request_before_the_response_is_busy :
    nextIs (exec (.nop .a 8 []) (replyDue ready))
      (setPort .a { (replyDue ready).ports.get .a with outcome := .busy, sdo := requestOut (replyDue ready) .a [] }
        ready) = true := by decide +kernel

/-! ## What meets the hypotheses of the statements -/

theorem witness_StepTakesTheFrontCommand : State.reset.pending = [] := rfl

theorem frameOn_poll (part : FramePart) : FrameOn .a part (.poll .a [] part) := .inr (.inr (.inl ⟨[], rfl⟩))

theorem frameOn_nop (part : FramePart) : FrameOn .a part (.nop .a 0 [] part) := .inl ⟨.nop, 0, [], rfl⟩

theorem witness_IgnoredFrames :
    framesTaken (cleared ready) .a = false ∧ (cleared ready).csLow.get .a = false ∧
    framesTaken (held ready ⟨none, true, false⟩) .a = false ∧ (held ready ⟨none, true, false⟩).csLow.get .a = false ∧
    (ready.ports.get .a).receiver = .idle ∧ (ignoring ready).csLow.get .a = true ∧
    ((ignoring ready).ports.get .a).receiver = .ignoring ∧ ((cleared ready).ports.get .a).receiver = .idle := by
  decide +kernel

theorem witness_BusyRequests :
    CanFrame (replyDue ready) .a ∧ ((replyDue ready).ports.get .a).inProgress ≠ none ∧
    (List.replicate 252 (0 : Byte)).length ≤ 252 := by decide +kernel

theorem witness_FrameErrorsAreRecorded :
    CanFrame ready .a ∧ frameVerdict [] 7 = .frameError ∧ frameVerdict [0xA1] 0 = .frameError ∧
    frameVerdict [0xA2, 0] 1 = .frameError ∧ frameVerdict [0xA4] 0 = .frameError := by decide +kernel

theorem witness_FetchAndPollShowTheState :
    CanFrame ready .a ∧ (ready.ports.get .a).response = none ∧
    CanFrame (setPort .a { PortIf.reset with response := some ⟨1, .ok, [2]⟩ } ready) .a ∧
    ((setPort .a { PortIf.reset with response := some ⟨1, .ok, [2]⟩ } ready).ports.get .a).response =
      some ⟨1, .ok, [2]⟩ := by decide +kernel

theorem witness_FramesRoundTrip :
    (Instr.setAccess .d 0xFF [127, 15, 0, 1]).wf = true ∧
    (encodeFrame (.setAccess .d 0xFF [127, 15, 0, 1])).isSome = true ∧
    (Instr.nop .a 0 (List.replicate 252 0xFF)).wf = true ∧
    (encodeFrame (.nop .a 0 (List.replicate 252 0xFF))).isSome = true ∧
    (Instr.fetch .a []).wf = true ∧ encodeFrame (.fetch .a []) = some (.a, [0xA2], 0) ∧
    (Instr.poll .b [0x55]).wf = true ∧ encodeFrame (.poll .b [0x55]) = some (.b, [0xA3, 0x55], 0) ∧
    (Instr.frameError .c [] 7).wf = true ∧ encodeFrame (.frameError .c [] 7) = some (.c, [], 7) := by decide +kernel

/-- The fall, and the clock before any bit, with a slot that is empty and one that is not. -/
theorem witness_FramesByParts_fall_and_clock :
    CanFrame ready .a ∧ ((inFrame fallen ready).ports.get .a).receiver = .receiving fallen ∧ fallen.bits = 0 ∧
    fallen.slot = none ∧
    ((inFrame { fallen with slot := some ⟨1, .ok, [2]⟩ } ready).ports.get .a).receiver =
      .receiving { fallen with slot := some ⟨1, .ok, [2]⟩ } ∧
    (List.replicate 252 (0 : Byte)).length ≤ 252 ∧ frameVerdict [0xA2, 0] 1 = .frameError := by decide +kernel

/-- Another event inside a frame. -/
theorem witness_FramesByParts_between :
    (∀ part, ¬FrameOn .a part .timebasePeriodEnd) ∧ framesTaken (inFrame fallen ready) .a = true ∧
    ∃ t, exec .timebasePeriodEnd (inFrame fallen ready) = .next t ∧ framesTaken t .a = true := by
  refine ⟨fun part h => ?_, by decide +kernel, ⟨_, rfl, by decide +kernel⟩⟩
  rcases h with ⟨c, tag, body, h⟩ | ⟨n, h⟩ | ⟨n, h⟩ | ⟨bytes, extra, h⟩
  · cases c <;> cases h
  all_goals cases h

/-- The rise with the bits of each kind of frame, a request busy and accepted among them, and the reply. -/
theorem witness_FramesByParts_rise_and_reply :
    (inFrame fallen ready).csLow.get .a = true ∧ ((inFrame fallen ready).ports.get .a).inProgress = none ∧
    (inFrame fallen ready).reads.get .a = none ∧ ((inFrame fallen (replyDue ready)).ports.get .a).inProgress ≠ none ∧
    ((inFrame { fallen with bits := 8, bytes := [0xA2] } ready).ports.get .a).receiver =
      .receiving { fallen with bits := 8, bytes := [0xA2] } ∧
    ([0xA2] : List Byte) = (0xA2 :: []).take 257 ∧
    ((inFrame { fallen with bits := 8 * 2 + 1, bytes := [0xA2, 0] } ready).ports.get .a).receiver =
      .receiving { fallen with bits := 8 * 2 + 1, bytes := [0xA2, 0] } ∧ frameVerdict [0xA2, 0] 1 = .frameError ∧
    ((inFrame { fallen with bits := 40, bytes := requestFrameBytes .nop 8 [] } (replyDue ready)).ports.get .a).receiver =
      .receiving { fallen with bits := 40, bytes := requestFrameBytes .nop 8 [] } ∧
    ((replyDue ready).ports.get .a).inProgress = some 7 ∧ ((replyDue ready).ports.get .a).due = some ⟨7, .ok, [9]⟩ ∧
    (ready.ports.get .a).due = none ∧ ((replyDue ready).ports.get .a).inProgress ≠ some 8 := by decide +kernel

theorem witness_NotReadyAndNotAdmin :
    CanRequest (inState ready .unformatted) .a ∧ (inState ready .unformatted).device ≠ .ready ∧
    (inState ready .unformatted).rc.admin = .a ∧
    CanRequest State.reset .a ∧ State.reset.device = .mounting ∧ State.reset.rc.admin = .a ∧
    CanRequest ready .b ∧ ready.rc.admin ≠ .b := by decide +kernel

theorem witness_NopEchoes :
    CanRequest ready .a ∧ ready.device = .ready ∧ CanRequest State.reset .a ∧ State.reset.device ≠ .ready := by
  decide +kernel

/-- A body of one byte that is no record number. -/
abbrev recordBeyond (body : List Byte) : Prop := ∃ rb ∈ body, body = [rb] ∧ 128 ≤ rb.toNat

theorem witness_QueryRecordReports :
    CanServe valid5 .a ∧ (slotOf valid5 5).entry = some rec24 ∧ slotOf valid5 127 = Slot.undefined ∧
    lockOf valid5 127 = Lock.free ∧ ([] : List Byte).length ≠ 1 ∧ [(0 : Byte), 0].length ≠ 1 ∧ recordBeyond [128] ∧
    (recByte 127).toNat = 127 := by decide +kernel

theorem witness_DeviceStatusReports : CanRequest State.reset .d ∧ CanRequest valid5 .a := by decide +kernel

theorem witness_ReportsAreFetched :
    CanServe (setResult .a (some ⟨some 5, .record, .ok, 4⟩) ready) .a ∧
    (setResult .a (some ⟨some 5, .record, .ok, 4⟩) ready).results.get .a = some ⟨some 5, .record, .ok, 4⟩ ∧
    CanServe ready .a ∧ ready.results.get .a = none := by decide +kernel

theorem witness_ReadRecordIsTaken :
    CanServe valid5 .a ∧ (slotOf valid5 6).entry = none ∧ (slotOf valid5 5).entry = some rec24 ∧
    rec24.readSet.get .a = true ∧ (slotOf valid5 5).content = .valid .p0 3 ∧ 23 < rec24.length ∧
    23 + 1 ≤ rec24.length ∧ rec24.length ≤ 24 ∧ rec24.length < 23 + 2 ∧
    CanServe (with5 rec24 .empty) .a ∧ (slotOf (with5 rec24 .empty) 5).content = .empty ∧
    CanServe (with5 rec24 .damaged) .a ∧ (slotOf (with5 rec24 .damaged) 5).content = .damaged ∧
    CanServe (with5 { rec24 with readSet := PortSet.empty } .empty) .a ∧
    (slotOf (with5 { rec24 with readSet := PortSet.empty } .empty) 5).entry =
      some { rec24 with readSet := PortSet.empty } ∧ PortSet.empty.get .a = false := by decide +kernel

theorem witness_PlanesAreGranted :
    (setRead .a (some (readOf .openCopy .waiting false 100)) valid5).reads.get .a =
      some (readOf .openCopy .waiting false 100) ∧
    (valid5.arbiters.get .p0).holder = .none ∧
    ((holding .mount PortSet.empty false).arbiters.get .p0).holder ≠ .none ∧
    ((holding .mount ⟨true, false, false, true⟩ true).arbiters.get .p0).waiting.get .a = true ∧
    (∀ q : Port, ((holding .mount ⟨true, false, false, true⟩ true).arbiters.get .p0).waiting.get q = true → q ≠ .a →
      (portIndex .a + 3 - portIndex ((holding .mount ⟨true, false, false, true⟩ true).arbiters.get .p0).pointer) % 4 <
        (portIndex q + 3 - portIndex ((holding .mount ⟨true, false, false, true⟩ true).arbiters.get .p0).pointer) % 4) ∧
    ((holding .mount PortSet.empty true).arbiters.get .p0).waiting = PortSet.empty ∧
    ((holding .mount PortSet.empty true).arbiters.get .p0).engineWaiting = true ∧
    ((holding .mount PortSet.empty false).arbiters.get .p0).waiting = PortSet.empty ∧
    ((holding .mount PortSet.empty false).arbiters.get .p0).engineWaiting = false := by
  refine ⟨by decide +kernel, by decide +kernel, by decide +kernel, by decide +kernel, fun q => ?_, by decide +kernel,
    by decide +kernel, by decide +kernel, by decide +kernel⟩
  cases q <;> decide +kernel

theorem witness_ReadTenureEnds :
    let s := reading (.record 0 24) false 2047
    (s.arbiters.get .p0).holder = .read .a ∧ s.reads.get .a = some (readOf (.record 0 24) .reading false 2047) ∧
    (s.ports.get .a).inProgress = some 1 ∧ extentInArray 2047 (extentPages 24) = true ∧
    ((reading (.record 0 24) false 2048).arbiters.get .p0).holder = .read .a ∧
    (reading (.record 0 24) false 2048).reads.get .a = some (readOf (.record 0 24) .reading false 2048) ∧
    ((reading (.record 0 24) false 2048).ports.get .a).inProgress = some 1 ∧
    extentInArray 2048 (extentPages 24) = false ∧
    ((holding (.discarded .a false) PortSet.empty false).arbiters.get .p0).holder = .discarded .a false ∧
    0 + 24 ≤ (readOf (.record 0 24) .reading false 2047).length ∧
    (reading (.record 23 1) false 2047).reads.get .a = some (readOf (.record 23 1) .reading false 2047) ∧
    23 + 1 ≤ (readOf (.record 23 1) .reading false 2047).length ∧
    pageAddress .p1 2047 + 8 + 23 + 1 = 2 * Config.planeBytes := by
  decide +kernel

theorem witness_OpensAreTaken :
    CanServe valid5 .a ∧ (valid5.sessions.get .a).state = .idle ∧ (slotOf valid5 5).entry = some rec24 ∧
    (slotOf valid5 5).deletePending = false ∧ rec24.writeSet.get .a = true ∧ rec24.readSet.get .a = true ∧
    (slotOf valid5 5).content = .valid .p0 3 ∧ (slotOf valid5 127).entry = none ∧
    CanServe (onRecord5 .staging 0 false valid5) .a ∧ ((onRecord5 .staging 0 false valid5).sessions.get .a).state ≠ .idle ∧
    CanServe pending5 .a ∧ (slotOf pending5 5).entry = some rec24 ∧ (slotOf pending5 5).deletePending = true ∧
    CanServe (with5 rec24 .empty) .a ∧ (slotOf (with5 rec24 .empty) 5).content = .empty ∧
    CanServe (with5 rec24 .damaged) .a ∧ (slotOf (with5 rec24 .damaged) 5).content = .damaged ∧
    CanServe (with5 { rec24 with writeSet := PortSet.empty } .empty) .a ∧
    (slotOf (with5 { rec24 with writeSet := PortSet.empty } .empty) 5).entry =
      some { rec24 with writeSet := PortSet.empty } ∧ PortSet.empty.get .a = false := by decide +kernel

theorem witness_OpenCopyLoads :
    let s := reading .openCopy false 2047
    (s.arbiters.get .p0).holder = .read .a ∧ s.reads.get .a = some (readOf .openCopy .reading false 2047) ∧
    (s.ports.get .a).inProgress = some 1 ∧ extentInArray 2047 (extentPages 24) = true ∧
    (reading .openCopy true 2047).reads.get .a = some (readOf .openCopy .reading true 2047) ∧
    (reading .openCopy false 2048).reads.get .a = some (readOf .openCopy .reading false 2048) ∧
    extentInArray 2048 (extentPages 24) = false ∧
    ((holding (.discarded .a true) PortSet.empty false).arbiters.get .p0).holder = .discarded .a true := by
  decide +kernel

theorem witness_StageAndAppendStore :
    CanServe (onRecord5 .staging 24 false valid5) .a ∧
    ((onRecord5 .staging 24 false valid5).sessions.get .a).state = .staging ∧
    ((onRecord5 .staging 24 false valid5).sessions.get .a).record = some 5 ∧
    ((onRecord5 .staging 24 false valid5).sessions.get .a).fill ≤ rec24.length ∧
    (slotOf (onRecord5 .staging 24 false valid5) 5).entry = some rec24 ∧ (23 : Byte).toNat < rec24.length ∧
    rec24.length ≤ (([24, 0] : List Byte).headD 0).toNat ∧ CanServe valid5 .a ∧
    (valid5.sessions.get .a).state ≠ .staging ∧ 247 + [(1 : Byte)].length ≤ 248 := by decide +kernel

theorem witness_CommitsAreQueued :
    CanServe (onRecord5 .staging 24 false valid5) .a ∧
    ((onRecord5 .staging 24 false valid5).sessions.get .a).state = .staging ∧
    ((onRecord5 .staging 24 false valid5).sessions.get .a).record = some 5 ∧
    ((onRecord5 .staging 24 false valid5).sessions.get .a).overrun = false ∧
    (onRecord5 .staging 24 false valid5).rc.warning = false ∧
    (onRecord5 .staging 24 false valid5).rc.restartPending = false ∧
    CanServe (onRecord5 .staging 24 true valid5) .a ∧
    ((onRecord5 .staging 24 true valid5).sessions.get .a).overrun = true ∧
    CanServe (warned (onRecord5 .staging 24 false valid5)) .a ∧
    (warned (onRecord5 .staging 24 false valid5)).rc.warning = true ∧
    CanServe (restarting (onRecord5 .staging 24 false valid5)) .a ∧
    (restarting (onRecord5 .staging 24 false valid5)).rc.restartPending = true ∧
    CanServe valid5 .a ∧ (valid5.sessions.get .a).state ≠ .staging := by decide +kernel

theorem witness_AbandonBySession :
    CanServe valid5 .a ∧ (valid5.sessions.get .a).state = .idle ∧
    CanServe (onRecord5 .programming 0 false valid5) .a ∧
    ((onRecord5 .programming 0 false valid5).sessions.get .a).state = .programming ∧
    CanServe (onRecord5 .staging 0 false valid5) .a ∧
    CanServe (setQueue [⟨.b, .layout .format⟩, record5] (onRecord5 .queued 24 false valid5)) .a ∧
    ((setQueue [⟨.b, .layout .format⟩, record5] (onRecord5 .queued 24 false valid5)).sessions.get .a).state = .queued ∧
    (setQueue [⟨.b, .layout .format⟩, record5] (onRecord5 .queued 24 false valid5)).queue.find?
      (fun e => e.port = .a) = some record5 ∧
    CanServe (setQueue [⟨.a, .layout (.delete 5)⟩] (onRecord5 .queued 0 false pending5)) .a ∧
    (setQueue [⟨.a, .layout (.delete 5)⟩] (onRecord5 .queued 0 false pending5)).queue.find?
      (fun e => e.port = .a) = some ⟨.a, .layout (.delete 5)⟩ := by decide +kernel

theorem witness_LocksAreAsked :
    CanServe valid5 .a ∧ [(5 : Byte), 1].length ≠ 3 ∧ (128 ≤ (128 : Byte).toNat ∨ (1 : Byte) = 0) ∧
    (128 ≤ (127 : Byte).toNat ∨ (0 : Byte) = 0) ∧ (1 : Byte) ≠ 0 ∧ (slotOf valid5 6).entry = none ∧
    (slotOf valid5 5).entry = some rec24 ∧ rec24.writeSet.get .a = true ∧ (slotOf valid5 5).deletePending = false ∧
    lockOf valid5 5 = Lock.free ∧ CanServe pending5 .a ∧ (slotOf pending5 5).deletePending = true ∧
    CanServe (lock5 heldByB valid5) .b ∧ (lockOf (lock5 heldByB valid5) 5).holder = some .b ∧
    CanServe (lock5 heldByB valid5) .c ∧ waitsOn (lockOf (lock5 heldByB valid5) 5) .c = true ∧
    CanServe (lock5 heldByB valid5) .a ∧ (∀ r', waitsOn (lockOf (lock5 heldByB valid5) r') .a = false) ∧
    CanServe (with5 { rec24 with writeSet := PortSet.empty } .empty) .a := by decide +kernel

theorem witness_LocksAreReleased :
    CanServe (lock5 heldByB valid5) .b ∧ (slotOf (lock5 heldByB valid5) 5).entry ≠ none ∧
    (lockOf (lock5 heldByB valid5) 5).holder = some .b ∧
    (lockOf (lock5 heldByB valid5) 5).waits = ⟨.c, 1, 255, true⟩ :: [] ∧
    CanServe (lock5 { heldByB with waits := [] } valid5) .b ∧
    (lockOf (lock5 { heldByB with waits := [] } valid5) 5).waits = [] ∧
    CanServe (lock5 heldByB valid5) .c ∧ waitsOn (lockOf (lock5 heldByB valid5) 5) .c = true ∧
    CanServe (lock5 heldByB valid5) .a ∧ waitsOn (lockOf (lock5 heldByB valid5) 5) .a = false ∧
    (slotOf valid5 6).entry = none ∧ recordBeyond [128] ∧ ([] : List Byte).length ≠ 1 := by decide +kernel

theorem witness_CountdownsRunOut :
    (lockOf (lock5 { heldByB with lease := 2 } valid5) 5).holder ≠ none ∧
    2 ≤ (lockOf (lock5 { heldByB with lease := 2 } valid5) 5).lease ∧
    (lockOf (lock5 heldByB valid5) 5).lease = 1 ∧ (lockOf valid5 5).holder = none ∧
    (lockOf (lock5 heldByB valid5) 5).holder = some .b ∧ (lockOf (lock5 heldByB valid5) 5).leaseDue = true ∧
    (lockOf (lock5 heldByB valid5) 5).waits = ⟨.c, 1, 255, true⟩ :: [] ∧
    (lockOf (lock5 { heldByB with waits := [] } valid5) 5).waits = [] ∧
    (lockOf (lock5 { heldByB with leaseDue := false } valid5) 5).leaseDue = false ∧
    (∃ w ∈ (lockOf (lock5 heldByB valid5) 5).waits, w.port = .c ∧ w.due = true) ∧
    (∀ w ∈ (lockOf (lock5 heldByB valid5) 5).waits, w.port = .a → w.due = false) := by decide +kernel

theorem witness_WatchSetsChange :
    CanServe valid5 .a ∧ (slotOf valid5 6).entry = none ∧ (slotOf valid5 5).entry = some rec24 ∧
    rec24.readSet.get .a = true ∧ [(5 : Byte), 0].length ≠ 1 ∧ recordBeyond [128] ∧
    CanServe (with5 { rec24 with readSet := PortSet.empty } .empty) .a ∧
    (slotOf (with5 { rec24 with readSet := PortSet.empty } .empty) 5).entry =
      some { rec24 with readSet := PortSet.empty } := by decide +kernel

theorem witness_NoticesAreFetched :
    CanServe valid5 .a ∧ valid5.notices.get .a = [] ∧ CanServe (setNotices .a [⟨5, 4, .b⟩] valid5) .a ∧
    (setNotices .a [⟨5, 4, .b⟩] valid5).notices.get .a = ⟨5, 4, .b⟩ :: [] := by decide +kernel

theorem witness_FlagsAreAcknowledged :
    CanRequest State.reset .a ∧ flagBody [0, 2] = none ∧ flagBody [0] = none ∧ flagBody [0xFF, 1] = some Flags.full := by
  decide +kernel

theorem witness_FormatAndSetAccessAreQueued :
    CanRequest valid5 .a ∧ valid5.rc.admin = .a ∧ valid5.device = .ready ∧ (valid5.sessions.get .a).state = .idle ∧
    (slotOf valid5 5).entry ≠ none ∧ (slotOf valid5 6).entry = none ∧ valid5.rc.warning = false ∧
    valid5.rc.restartPending = false ∧ (∀ r, (slotOf ready r).entry = none) ∧
    (inState ready .layoutDamaged).device ≠ .mounting ∧ (inState ready .layoutDamaged).device ≠ .ready ∧
    (warned valid5).rc.warning = true ∧ (restarting valid5).rc.restartPending = true ∧
    ((onRecord5 .staging 0 false valid5).sessions.get .a).state ≠ .idle ∧ [(5 : Byte), 0, 0].length ≠ 4 ∧
    128 ≤ (128 : Byte).toNat ∧ 16 ≤ (16 : Byte).toNat ∧ 2 ≤ (2 : Byte).toNat ∧ ¬16 ≤ (15 : Byte).toNat ∧
    [(5 : Byte), 15, 1, 1] = [recByte 5, portSetByte (PerPort.all true), portSetByte ⟨true, false, false, false⟩,
      if true then 1 else 0] := by
  decide +kernel

theorem witness_DefinesAreQueued :
    CanServe valid5 .a ∧ valid5.rc.admin = .a ∧ (valid5.sessions.get .a).state = .idle ∧ ([] : List Byte).length ≠ 7 ∧
    128 ≤ (128 : Byte).toNat ∧ 16 ≤ (16 : Byte).toNat ∧ 2 ≤ (2 : Byte).toNat ∧
    (slotOf valid5 5).entry ≠ none ∧ (slotOf valid5 6).entry = none ∧ 2047 + (24 + 8 + 31) / 32 ≤ 2048 ∧
    ¬(2047 + (25 + 8 + 31) / 32 ≤ 2048) ∧ 1 ≤ rec24.length ∧ rec24.length ≤ 248 ∧ 25 ≤ rec24.basePage ∧
    extentPages rec24.length = 1 ∧ (warned valid5).rc.warning = true ∧
    (restarting valid5).rc.restartPending = true ∧ valid5.rc.warning = false ∧ valid5.rc.restartPending = false ∧
    overlapsDefined valid5 { rec24 with basePage := 99 } = false ∧ overlapsDefined valid5 rec24 = true := by
  decide +kernel

/-- The premise of DEFINE's acceptance, for a page beside record 5: no page is shared with a defined record. -/
theorem witness_DefinesAreQueued_place (r' : RecNo) (f : LayoutEntry) (page : Nat)
    (h : (slotOf valid5 r').entry = some f) (h1 : 101 ≤ page) (_h2 : page < 101 + extentPages 24) :
    ¬(f.basePage ≤ page ∧ page < f.basePage + extentPages f.length) := by
  have key : ∀ r' : RecNo, (slotOf valid5 r').entry = none ∨ (slotOf valid5 r').entry = some rec24 := by decide +kernel
  rcases key r' with k | k
  · simp [k] at h
  · rw [k] at h
    cases h
    rintro ⟨_, b⟩
    have e : extentPages rec24.length = 1 := by decide
    have f : rec24.basePage = 100 := rfl
    omega

/-- READY with record 5 and an OPEN COPY of it by port B in a phase. -/
def openByB (ph : ReadPhase) : State := setRead .b (some (readOf .openCopy ph false 100)) (inProgress .b 1 valid5)

theorem witness_DeletesAreQueued (ph : ReadPhase) :
    CanServe (openByB ph) .a ∧ (openByB ph).rc.admin = .a ∧ ((openByB ph).sessions.get .a).state = .idle ∧
    (slotOf (openByB ph) 6).entry = none ∧ (slotOf (openByB ph) 5).entry ≠ none ∧
    (slotOf (openByB ph) 5).deletePending = false ∧ (lockOf (openByB ph) 5).holder = none ∧
    (lockOf (openByB ph) 5).waits = [] ∧
    (∀ q : Port, ((openByB ph).sessions.get q).record = some 5 → ((openByB ph).sessions.get q).state = .idle) ∧
    (openByB ph).rc.warning = false ∧ (openByB ph).rc.restartPending = false ∧ (openByB ph).reads.get .a = none ∧
    (openByB ph).reads.get .b = some (readOf .openCopy ph false 100) ∧
    ((openByB ph).ports.get .b).inProgress = some 1 ∧ (openByB ph).reads.get .c = none ∧
    (slotOf pending5 5).deletePending = true ∧ (lockOf (lock5 heldByB valid5) 5).holder ≠ none ∧
    recordBeyond [128] ∧ (warned valid5).rc.warning = true ∧ (restarting valid5).rc.restartPending = true := by
  cases ph <;>
  refine ⟨by decide +kernel, by decide +kernel, by decide +kernel, by decide +kernel, by decide +kernel,
    by decide +kernel, by decide +kernel, by decide +kernel, fun q => ?_, by decide +kernel⟩ <;>
  cases q <;> decide +kernel

theorem witness_RestartIsMarked :
    CanRequest ready .a ∧ ready.rc.admin = .a ∧ ready.device ≠ .mounting ∧ CanRequest (restarting ready) .a ∧
    (restarting ready).rc.restartPending = true := by decide +kernel

theorem witness_EngineGate :
    (at5 .erase 1 1 1 100).engine.state ≠ .idle ∧ ready.queue = [] ∧ State.reset.rc.warning = true ∧
    (restarting ready).rc.restartPending = true ∧ State.reset.device = .mounting ∧
    (setQueue [record5] (inState ready .unformatted)).device ≠ .ready ∧
    (setQueue [record5] (inState ready .unformatted)).queue = record5 :: [] ∧
    record5.work ≠ .layout .format := by decide +kernel

theorem witness_RecordEntriesStart :
    let s := setQueue [record5] (onRecord5 .queued 24 false valid5)
    s.engine.state = .idle ∧ s.rc.warning = false ∧ s.rc.restartPending = false ∧ s.device = .ready ∧
    s.queue = ⟨.a, .record 5 .any 3⟩ :: [] ∧ (slotOf s 5).entry = some rec24 ∧ rec24.writeSet.get .a = true ∧
    rec24.guarded = false ∧ (lockOf s 5).holder = none ∧ (3 : Gen) = (slotOf s 5).content.generation ∧
    (slotOf s 5).content.current = some .p0 ∧ (slotOf (with5 rec24 .empty) 5).content.current ≠ some .p0 ∧
    (lockOf (lock5 (grantedTo .a 1 []) s) 5).holder = some .a := by decide +kernel

theorem witness_RecordStartsFail :
    let s := setQueue [⟨.a, .record 5 .matching 2⟩] (onRecord5 .queued 24 false valid5)
    s.engine.state = .idle ∧ s.rc.warning = false ∧ s.rc.restartPending = false ∧ s.device = .ready ∧
    s.queue = ⟨.a, .record 5 .matching 2⟩ :: [] ∧ (slotOf s 5).entry = some rec24 ∧ rec24.writeSet.get .a = true ∧
    (2 : Gen) ≠ (slotOf s 5).content.generation ∧ (slotOf s 6).entry = none ∧
    (slotOf (with5 { rec24 with writeSet := PortSet.empty } .empty) 5).entry =
      some { rec24 with writeSet := PortSet.empty } ∧
    (slotOf (with5 { rec24 with guarded := true } .empty) 5).entry = some { rec24 with guarded := true } ∧
    (lockOf (with5 { rec24 with guarded := true } .empty) 5).holder ≠ some .a ∧
    (lockOf (lock5 heldByB s) 5).holder = some .b := by decide +kernel

theorem witness_LayoutEntriesStart :
    let s := setQueue [⟨.a, .layout (.define 6 { rec24 with basePage := 101 })⟩] valid5
    s.engine.state = .idle ∧ s.rc.warning = false ∧ s.rc.restartPending = false ∧ s.device = .ready ∧
    s.dir.layout = some ⟨.p0, 1⟩ ∧ (slotOf s 6).entry = none ∧
    overlapsDefined s { rec24 with basePage := 101 } = false ∧ overlapsDefined s rec24 = true ∧
    (slotOf s 5).entry = some rec24 ∧ slotOf s 6 = Slot.undefined ∧
    (setQueue [⟨.a, .layout .format⟩] (inState ready .unformatted)).device ≠ .mounting ∧
    (setQueue [⟨.a, .layout .format⟩] (inState ready .unformatted)).queue = ⟨.a, .layout .format⟩ :: [] := by
  decide +kernel

theorem witness_EraseAttemptsEnd :
    let s := dirty (at5 .erase 1 1 1 100)
    s.engine.entry = some record5 ∧ s.engine.step = some ⟨.erase, 1, 1⟩ ∧ s.engine.state = .erase ∧
    phaseState .erase = .erase ∧ stepPlane s ⟨.erase, 1, 1⟩ = .p1 ∧ stepPage s ⟨.erase, 1, 1⟩ = 100 ∧
    (s.arbiters.get .p1).holder = .engine ∧ s.engine.attempt < 3 ∧
    eraseAttempt (readPage s.array .p1 100) allBits = erasedPage ∧
    eraseAttempt (readPage s.array .p1 100) noBits ≠ erasedPage ∧
    (eraseAttempt (readPage s.array .p1 100) noBits).get 0 ≠ 0xFF ∧
    nextStep ⟨.erase, 1, 1⟩ = some ⟨.program, 1, 1⟩ ∧ memWf s.array = true ∧
    stepPage (at5 .erase 1 1 1 2047) ⟨.erase, 1, 1⟩ = 2047 ∧
    stepPage (at5 .erase 1 1 1 2048) ⟨.erase, 1, 1⟩ = 2048 := by decide +kernel

/-- The tables of plane and page: with and without a layout current copy in plane 0, a record and a layout entry. -/
theorem witness_EraseAttemptsEnd_tables :
    valid5.dir.layout = some ⟨.p0, 1⟩ ∧ State.reset.dir.layout = none ∧
    (at5 .erase 1 1 1 100).engine.target = some .p1 ∧ (at5 .erase 1 1 1 100).engine.entry = some record5 ∧
    (layoutAt (.delete 5) .erase 1).engine.entry = some ⟨.a, .layout (.delete 5)⟩ ∧
    (at5 .program 1 2 1 100).engine.target = some .p1 ∧ (at5 .program 1 2 1 100).engine.buffer = dataBuffer ∧
    (layoutAt (.delete 5) .program 25).engine.buffer = anImage := by decide +kernel

theorem witness_ProgramAttemptsEnd :
    let s := at5 .program 1 2 1 100
    s.engine.entry = some record5 ∧ s.engine.step = some ⟨.program, 1, 2⟩ ∧ s.engine.state = .program ∧
    stepPlane s ⟨.program, 1, 2⟩ = .p1 ∧ stepPage s ⟨.program, 1, 2⟩ = 101 ∧ (s.arbiters.get .p1).holder = .engine ∧
    s.engine.attempt < 3 ∧ memWf s.array = true ∧
    programAttempt (readPage s.array .p1 101) (stepContent s ⟨.program, 1, 2⟩) allBits = stepContent s ⟨.program, 1, 2⟩ ∧
    programAttempt (readPage (at5 .program 1 1 1 100).array .p1 100) (stepContent (at5 .program 1 1 1 100) ⟨.program, 1, 1⟩)
      noBits ≠ stepContent (at5 .program 1 1 1 100) ⟨.program, 1, 1⟩ ∧
    stepPage (at5 .program 1 1 1 2048) ⟨.program, 1, 1⟩ = 2048 := by decide +kernel

/-- The last page of record 5's commit, port B's read of the record waiting at the other plane, and ports waiting at
this one. -/
def commitWithReads (w : PortSet) : State :=
  setRead .b (some (readOf (.record 0 24) .waiting false 100))
    (setArbiter .p1 { Arbiter.reset with holder := .engine, waiting := w } (at5 .program 1 1 1 2047))

/-- Where no read waits at the target plane it is free after the step, and the moved read is granted; else not. -/
theorem witness_RecordEntriesComplete (b : Bool) :
    let s := commitWithReads ⟨false, false, b, false⟩
    let new := stepContent s ⟨.program, 1, 1⟩
    let u := endTenure .p1 { s with array := writePage s.array .p1 2047 new }
    s.engine.entry = some ⟨.a, .record 5 .any 3⟩ ∧ s.engine.step = some ⟨.program, 1, 1⟩ ∧ s.engine.state = .program ∧
    s.engine.target = some .p1 ∧ s.engine.basePage = 2047 ∧ (s.arbiters.get .p1).holder = .engine ∧
    programAttempt (readPage s.array .p1 2047) new allBits = new ∧
    u.reads.get .b = some (readOf (.record 0 24) .waiting false 100) ∧ u.reads.get .a = none ∧
    ((u.arbiters.get .p1).holder = .none ↔ b = false) := by
  cases b <;> decide +kernel

/-- The last page of an operation, with record 5 held by B, C and D waiting for it, and A reading it. -/
def layoutEnds (op : LayoutOp) : State :=
  setRead .a (some (readOf (.record 0 24) .waiting false 100)) (inProgress .a 1
    (lock5 { heldByB with waits := [⟨.c, 1, 255, true⟩, ⟨.d, 9, 1, false⟩] } (layoutAt op .program 25)))

theorem witness_LayoutEntriesComplete (op : LayoutOp)
    (h : op = .format ∨ op = .define 6 { rec24 with basePage := 101 } ∨ op = .delete 5 ∨
      op = .setAccess 5 PortSet.empty PortSet.empty true ∨
      op = .setAccess 5 PortSet.empty ⟨true, false, false, true⟩ false) :
    let s := layoutEnds op
    let new := stepContent s ⟨.program, 25, 25⟩
    let u := endTenure .p1 { s with array := writePage s.array .p1 0 new }
    s.engine.entry = some ⟨.a, .layout op⟩ ∧ s.engine.step = some ⟨.program, 25, 25⟩ ∧ s.engine.state = .program ∧
    s.engine.target = some .p1 ∧ (s.arbiters.get .p1).holder = .engine ∧
    programAttempt (readPage s.array .p1 0) new allBits = new ∧ (slotOf s 5).entry = some rec24 ∧
    (lockOf s 5).holder = some .b ∧ u.reads.get .a = some (readOf (.record 0 24) .waiting false 100) ∧
    (s.ports.get .a).inProgress = some 1 ∧ u.reads.get .b = none := by
  rcases h with rfl | rfl | rfl | rfl | rfl <;> decide +kernel

/-- An OPEN COPY of the record that waits when its DELETE completes, which no run reaches (log 19). -/
theorem witness_LayoutEntriesComplete_open :
    let s := setRead .a (some (readOf .openCopy .waiting false 100)) (layoutEnds (.delete 5))
    let new := stepContent s ⟨.program, 25, 25⟩
    let u := endTenure .p1 { s with array := writePage s.array .p1 0 new }
    s.engine.entry = some ⟨.a, .layout (.delete 5)⟩ ∧ s.engine.step = some ⟨.program, 25, 25⟩ ∧
    s.engine.state = .program ∧ s.engine.target = some .p1 ∧ (s.arbiters.get .p1).holder = .engine ∧
    programAttempt (readPage s.array .p1 0) new allBits = new ∧
    u.reads.get .a = some (readOf .openCopy .waiting false 100) ∧ (s.ports.get .a).inProgress = some 1 := by
  decide +kernel

/-- The waiters a new write set leaves: none, and D alone. -/
theorem witness_LayoutEntriesComplete_waiters :
    ((lockOf (layoutEnds .format) 5).waits.filter fun w => PortSet.empty.get w.port) = [] ∧
    ((lockOf (layoutEnds .format) 5).waits.filter fun w => (⟨true, false, false, true⟩ : PortSet).get w.port) =
      ⟨.d, 9, 1, false⟩ :: [] := by decide +kernel

theorem witness_ThirdFailuresEnd :
    (at5 .program 1 1 3 100).engine.attempt = 3 ∧
    programAttempt (readPage (at5 .program 1 1 3 100).array .p1 100) (stepContent (at5 .program 1 1 3 100) ⟨.program, 1, 1⟩)
      noBits ≠ stepContent (at5 .program 1 1 3 100) ⟨.program, 1, 1⟩ ∧
    ((at5 .program 1 1 3 100).arbiters.get .p1).holder = .engine ∧
    eraseAttempt (readPage (dirty (at5 .erase 1 1 3 100)).array .p1 100) noBits ≠ erasedPage ∧
    stepPage (dirty (at5 .erase 2 2 3 99)) ⟨.erase, 2, 2⟩ = 100 ∧
    (layoutAt (.delete 5) .program 25).engine.attempt = 3 ∧
    stepPage (layoutAt (.delete 5) .program 25) ⟨.program, 25, 25⟩ = 0 ∧
    ((layoutAt (.delete 5) .program 25).arbiters.get .p1).holder = .engine ∧
    programAttempt (readPage (layoutAt (.delete 5) .program 25).array .p1 0)
      (stepContent (layoutAt (.delete 5) .program 25) ⟨.program, 25, 25⟩) noBits ≠
        stepContent (layoutAt (.delete 5) .program 25) ⟨.program, 25, 25⟩ := by decide +kernel

theorem witness_InvalidationEndsTheEntry :
    let s := at5 .invalidate 1 2 1 2047
    s.engine.entry = some ⟨.a, .record 5 .any 3⟩ ∧ s.engine.step = some ⟨.invalidate, 1, 2⟩ ∧
    s.engine.state = .program ∧ s.engine.target = some .p1 ∧ s.engine.basePage = 2047 ∧
    (s.arbiters.get .p1).holder = .engine ∧ readPage s.array .p1 2047 = erasedPage ∧
    (at5 .invalidate 1 2 1 2048).engine.basePage = 2048 ∧
    (programAttempt erasedPage (erasedPage.set 0 0) allBits).get 0 ≠ 0xFF ∧
    (programAttempt erasedPage (erasedPage.set 0 0) noBits).get 0 = 0xFF := by decide +kernel

theorem witness_SupplyWarningMoves :
    ready.rc.warning = false ∧ resetInForce ready = false ∧ ready.device ≠ .mounting ∧
    (inState ready .mounting).device = .mounting ∧ (inState ready .mounting).rc.warning = false ∧
    resetInForce (held ready ⟨none, true, false⟩) = true ∧ (held ready ⟨none, true, false⟩).rc.warning = false ∧
    (warned ready).rc.warning = true := by decide +kernel

theorem witness_PortClears :
    let s := onRecord5 .queued 24 false (setQueue [record5] (lock5 (grantedTo .a 5 [⟨.c, 1, 9, false⟩]) valid5))
    s.clearLow.get .a = false ∧ resetInForce s = false ∧ s.reads.get .a = none ∧
    (s.sessions.get .a).state = .queued ∧ (lockOf s 5).holder = some .a ∧
    (lockOf s 5).waits.filter (fun w => w.port ≠ .a) = ⟨.c, 1, 9, false⟩ :: [] ∧
    (reading .openCopy false 100).clearLow.get .a = false ∧ resetInForce (reading .openCopy false 100) = false ∧
    (reading .openCopy false 100).reads.get .a = some (readOf .openCopy .reading false 100) ∧
    (setRead .a (some (readOf .openCopy .waiting false 100)) valid5).reads.get .a =
      some (readOf .openCopy .waiting false 100) ∧
    resetInForce (held ready ⟨some .supply, false, false⟩) = true ∧
    ({ ready with clearLow := ⟨true, false, false, false⟩ } : State).clearLow.get .a = true ∧
    resetInForce { ready with clearLow := ⟨true, false, false, false⟩ } = false ∧
    (ignoring s).clearLow.get .a = false ∧ (ignoring s).csLow.get .a = true := by decide +kernel

theorem witness_DeviceResetsAreTaken :
    ready.rc.sources.pin = false ∧ (restarting ready).rc.restartPending = true ∧
    (restarting ready).engine.state = .idle ∧ resetInForce (restarting ready) = false ∧
    resetInForce (held ready ⟨none, true, false⟩) = true ∧ (held ready ⟨none, true, false⟩).rc.sources.pin = true ∧
    ready.rc.restartPending = false ∧ (restarting (at5 .erase 1 1 1 100)).engine.state ≠ .idle := by decide +kernel

theorem witness_ResetsCutOnePage :
    ready.engine.step = none ∧ (at5 .erase 1 1 1 2047).engine.step = some ⟨.erase, 1, 1⟩ ∧
    stepPage (at5 .erase 1 1 1 2047) ⟨.erase, 1, 1⟩ = 2047 ∧ memWf (at5 .erase 1 1 1 2047).array = true ∧
    (at5 .program 1 1 1 2047).engine.step = some ⟨.program, 1, 1⟩ ∧
    stepPage (at5 .program 1 1 1 2047) ⟨.program, 1, 1⟩ = 2047 ∧ memWf (at5 .program 1 1 1 2047).array = true ∧
    (readPage (cutStep allBits (at5 .program 1 1 1 2047)) .p1 2047).get 0 ≠
      (readPage (at5 .program 1 1 1 2047).array .p1 2047).get 0 ∧
    (at5 .invalidate 1 2 1 2047).engine.step = some ⟨.invalidate, 1, 2⟩ ∧
    stepPage (at5 .invalidate 1 2 1 2047) ⟨.invalidate, 1, 2⟩ = 2047 ∧
    memWf (at5 .invalidate 1 2 1 2047).array = true ∧
    (readPage (cutStep allBits (at5 .invalidate 1 2 1 2047)) .p1 2047).get 0 = 0 := by decide +kernel

theorem witness_SourcesLetGo :
    (held ready ⟨some .supply, false, false⟩).rc.sources.supply ≠ none ∧
    (held ready ⟨none, true, false⟩).rc.sources = ⟨none, true, false⟩ ∧
    (held ready ⟨none, false, true⟩).rc.sources = ⟨none, false, true⟩ ∧
    (held ready ⟨some .powerOn, true, false⟩).rc.sources.supply = some .powerOn ∧
    (held ready ⟨some .powerOn, true, false⟩).rc.sources.pin = true ∧
    (held ready ⟨none, true, true⟩).rc.sources.restart = true ∧ resetInForce ready = false ∧
    (held ready ⟨some .supply, true, false⟩).rc.sources.supply ≠ some .powerOn ∧
    (held ready ⟨some .powerOn, false, false⟩).rc.sources.supply ≠ some .supply ∧
    (held ready ⟨none, false, true⟩).rc.sources.pin = false ∧
    (held ready ⟨some .powerOn, true, false⟩).rc.sources.restart = false ∧
    (setCs .a true (warned (held ready ⟨none, true, false⟩))).rc.sources = ⟨none, true, false⟩ ∧
    (setCs .a true (warned (held ready ⟨none, true, false⟩))).csLow.get .a = true ∧
    (setCs .a true (warned (held ready ⟨none, true, false⟩))).rc.warning = true := by decide +kernel

/-- Mount reading a layout of generation 2 with no record defined in copy 1, and a blank copy 0. -/
@[irreducible] def arrayNone : Mem := memWriteBytes [] (pageAddress .p1 0) (layoutImage 2 (List.replicate 128 none))

def oneLayout : State := { setMount .layout State.reset with array := arrayNone }

theorem witness_MountRuns :
    State.reset.device = .mounting ∧ resetInForce State.reset = false ∧ State.reset.mount = .idle ∧
    (setMount .layout State.reset).mount = .layout ∧
    classifyLayout (readExtent (setMount .layout State.reset).array .p0 0 25) = .noImage ∧
    classifyLayout (readExtent (setMount .layout State.reset).array .p1 0 25) = .noImage ∧
    classifyLayout (readExtent [(0, 0)] .p0 0 25) = .invalid ∧
    (setMount (.records 0) valid5).mount = .records 0 ∧ (slotOf (setMount (.records 0) valid5) 5).entry = some rec24 ∧
    (∀ r', 5 ≠ r' → (slotOf (setMount (.records 0) valid5) r').entry = none) ∧
    extentInArray rec24.basePage (extentPages rec24.length) = true ∧
    (slotOf (setSlot 127 (slotWith { rec24 with basePage := 2048 } .undefined) valid5) 127).entry =
      some { rec24 with basePage := 2048 } ∧ extentInArray 2048 (extentPages 24) = false := by decide +kernel

/-- The bytes of a layout image of generation 2, from its parts. -/
theorem classify_layout_bytes (c : Gen) (rest body : List Byte) (es : List (Option LayoutEntry))
    (hb : (rest.drop 26).take 768 = body) (hc : crc16 ([0x5A, 0x01, 0x02, 0x00] ++ body) = c)
    (hp : parseLayoutEntries 128 body = some es) (ho : noOverlap es = true) :
    classifyLayout ([0x5A, 0x01, 0x02, 0x00] ++ genBytes c ++ rest) = .valid 2 (Table.ofList 128 none es) := by
  have h0 : (([0x5A, 0x01, 0x02, 0x00] ++ genBytes c ++ rest).take 6).all (fun b => b = 0xFF) = false := rfl
  have h1 : genOfBytes (byteAt ([0x5A, 0x01, 0x02, 0x00] ++ genBytes c ++ rest) 4)
      (byteAt ([0x5A, 0x01, 0x02, 0x00] ++ genBytes c ++ rest) 5) = c := genOfBytes_genBytes c
  have h2 : genOfBytes (byteAt ([0x5A, 0x01, 0x02, 0x00] ++ genBytes c ++ rest) 2)
      (byteAt ([0x5A, 0x01, 0x02, 0x00] ++ genBytes c ++ rest) 3) = 2 := (by decide : genOfBytes 0x02 0x00 = 2)
  have h3 : ([0x5A, 0x01, 0x02, 0x00] ++ genBytes c ++ rest).take 4 = [0x5A, 0x01, 0x02, 0x00] := rfl
  have h4 : ([0x5A, 0x01, 0x02, 0x00] ++ genBytes c ++ rest).drop 32 = rest.drop 26 := rfl
  have h5 : byteAt ([0x5A, 0x01, 0x02, 0x00] ++ genBytes c ++ rest) 0 = 0x5A ∧
      byteAt ([0x5A, 0x01, 0x02, 0x00] ++ genBytes c ++ rest) 1 = 0x01 ∧ (2 : Gen) ≠ 0 ∧
      c = crc16 ([0x5A, 0x01, 0x02, 0x00] ++ body) := ⟨rfl, rfl, by decide, hc.symm⟩
  simp only [classifyLayout, h0, h1, h2, h3, h4, hb, hp, ho, if_pos h5]
  rfl

/-- A layout image of generation 2: its length, and its class as mount reads it back. -/
theorem layoutImage_two (es : List (Option LayoutEntry)) (hl : (es.flatMap layoutEntryBytes).length = 768)
    (hp : parseLayoutEntries 128 (es.flatMap layoutEntryBytes) = some es) (ho : noOverlap es = true) :
    (layoutImage 2 es).length = 800 ∧ classifyLayout (layoutImage 2 es) = .valid 2 (Table.ofList 128 none es) := by
  have h : layoutImage 2 es =
      [0x5A, 0x01, 0x02, 0x00] ++ genBytes (crc16 ([0x5A, 0x01, 0x02, 0x00] ++ es.flatMap layoutEntryBytes)) ++
        (List.replicate 26 0xFF ++ es.flatMap layoutEntryBytes) := by
    have hh : layoutHeader 2 = [0x5A, 0x01, 0x02, 0x00] := by decide
    have hn : ([0x5A, 0x01, 0x02, 0x00] ++
        genBytes (crc16 ([0x5A, 0x01, 0x02, 0x00] ++ es.flatMap layoutEntryBytes))).length = 6 := rfl
    simp only [layoutImage, hh, padBlank, hn, List.append_assoc]
  rw [h]
  refine ⟨?_, classify_layout_bytes _ _ _ es ?_ rfl hp ho⟩
  · simp only [genBytes, List.length_append, List.length_cons, List.length_nil, List.length_replicate, hl]
  · rw [List.drop_left' (List.length_replicate ..), List.take_of_length_le (by omega)]

/-- The layouts of the test states: no record defined, and record 5 alone. -/
theorem layoutImage_none : (layoutImage 2 (List.replicate 128 none)).length = 800 ∧
    classifyLayout (layoutImage 2 (List.replicate 128 none)) =
      .valid 2 (Table.ofList 128 none (List.replicate 128 none)) :=
  layoutImage_two _ (by decide +kernel) (by decide +kernel) (by decide +kernel)

def entries5 : Table 128 (Option LayoutEntry) := (Table.fill 128 none).set 5 (some rec24)

theorem layoutImage_5 : (layoutImage 2 entries5.cells).length = 800 ∧
    classifyLayout (layoutImage 2 entries5.cells) = .valid 2 (Table.ofList 128 none entries5.cells) :=
  layoutImage_two _ (by decide +kernel) (by decide +kernel) (by decide +kernel)

theorem arrayNone_eq :
    arrayNone = memWriteBytes [] (pageAddress .p1 0) (layoutImage 2 (List.replicate 128 none)) := by
  unfold arrayNone
  rfl

theorem arrayNone_read0 : readExtent arrayNone .p0 0 25 = readExtent [] .p0 0 25 :=
  (congrArg (fun m => readExtent m .p0 0 25) arrayNone_eq).trans
    (readExtent_memWriteBytes_outside _ _ _ _ _ _ (by decide))

theorem arrayNone_read1 : readExtent arrayNone .p1 0 25 = layoutImage 2 (List.replicate 128 none) :=
  (congrArg (fun m => readExtent m .p1 0 25) arrayNone_eq).trans
    (readExtent_memWriteBytes_self _ _ _ _ 25 layoutImage_none.1 (by decide) (by decide))

theorem witness_MountRuns_layout_class :
    classifyLayout (readExtent oneLayout.array .p0 0 25) = .noImage ∧
    classifyLayout (readExtent oneLayout.array .p1 0 25) = .valid 2 (Table.fill 128 none) :=
  ⟨(congrArg classifyLayout arrayNone_read0).trans (by decide +kernel),
    (congrArg classifyLayout arrayNone_read1).trans
      (layoutImage_none.2.trans (congrArg (LayoutClass.valid 2) (by decide +kernel)))⟩

theorem witness_CopiesAreSelected :
    (65535 : Gen) ≠ 0 ∧ (5 : Gen) ≠ successor 3 ∧ (3 : Gen) ≠ successor 5 ∧ (65534 : Gen).toNat < 65535 := by decide

theorem witness_ImagesReadBack :
    (List.replicate 248 (0 : Byte)).length = 248 ∧ (65535 : Gen) ≠ 0 ∧
    (∀ r e, (Table.fill 128 (none : Option LayoutEntry)).get r = some e → placementOk e.length e.basePage = true) ∧
    (∀ r r', r ≠ r' → entriesOverlap ((Table.fill 128 (none : Option LayoutEntry)).get r)
      ((Table.fill 128 none).get r') = false) ∧
    placementOk 248 2040 = true ∧ placementOk 1 25 = true := by
  have key : ∀ r, (Table.fill 128 (none : Option LayoutEntry)).get r = none := by decide +kernel
  refine ⟨by decide +kernel, by decide, fun r e h => ?_, fun r r' _ => ?_, by decide, by decide⟩
  · rw [key r] at h
    exact absurd h (by simp)
  · rw [key r]
    rfl

/-! ## The states that the invariants speak of -/

/-- Record 5 VALID at generation 3 in plane 0, with its image and a layout image of generation 2 in the array. -/
@[irreducible] def array5 : Mem :=
  memWriteBytes (memWriteBytes [] (pageAddress .p0 0) (layoutImage 2 entries5.cells)) (pageAddress .p0 100)
    (recordImage 5 24 .p0 3 (List.replicate 24 0))

def stored5 : State := { setLayout (some ⟨.p0, 2⟩) valid5 with array := array5 }

theorem stored5_slots (r : RecNo) :
    r = 5 ∧ slotOf stored5 r = slotWith rec24 (.valid .p0 3) ∨ r ≠ 5 ∧ slotOf stored5 r = Slot.undefined := by
  revert r
  decide +kernel

theorem stored5_engine : stored5.engine = Engine.reset := rfl

theorem stored5_locks (r : RecNo) : lockOf stored5 r = Lock.free := by
  revert r
  decide +kernel

theorem stored5_layout_wf : memWf (memWriteBytes [] (pageAddress .p0 0) (layoutImage 2 entries5.cells)) = true :=
  memWriteBytes_wf _ _ _ (by rw [layoutImage_5.1]; decide) (by decide)



theorem stored5_image_length : (recordImage 5 24 .p0 3 (List.replicate 24 0)).length = 32 := by decide +kernel

theorem array5_eq :
    array5 = memWriteBytes (memWriteBytes [] (pageAddress .p0 0) (layoutImage 2 entries5.cells)) (pageAddress .p0 100)
      (recordImage 5 24 .p0 3 (List.replicate 24 0)) := by
  unfold array5
  rfl

theorem witness_ArrayOk : ArrayOk stored5 :=
  (congrArg memWf array5_eq).trans (memWriteBytes_wf _ _ _ (by rw [stored5_image_length]; decide) stored5_layout_wf)

/-- The image in the array is VALID at its generation. -/
theorem stored5_image : classifyRecord 5 24 .p0 (readExtent stored5.array .p0 100 (extentPages 24)) = .valid 3 :=
  (congrArg (fun m => classifyRecord 5 24 .p0 (readExtent m .p0 100 1)) array5_eq).trans
    ((congrArg (classifyRecord 5 24 .p0)
      (readExtent_memWriteBytes_self _ _ _ _ 1 stored5_image_length (by decide) stored5_layout_wf)).trans
        (by decide +kernel))

/-- The extent in plane 1 is erased. -/
theorem stored5_other : readExtent stored5.array .p1 100 1 = List.replicate 32 0xFF :=
  (congrArg (fun m => readExtent m .p1 100 1) array5_eq).trans
    ((readExtent_memWriteBytes_outside _ _ _ _ _ _ (by rw [stored5_image_length]; decide)).trans
      ((readExtent_memWriteBytes_outside _ _ _ _ _ _ (by rw [layoutImage_5.1]; decide)).trans (by decide +kernel)))

theorem stored5_layout : classifyLayout (readExtent stored5.array .p0 0 25) = .valid 2 entries5 :=
  (congrArg (fun m => classifyLayout (readExtent m .p0 0 25)) array5_eq).trans
    ((congrArg classifyLayout ((readExtent_memWriteBytes_outside _ _ _ _ _ _ (by decide)).trans
      (readExtent_memWriteBytes_self _ _ _ _ 25 layoutImage_5.1 (by decide) (by decide)))).trans
        (layoutImage_5.2.trans (congrArg (LayoutClass.valid 2) (by decide +kernel))))

theorem witness_LayoutCopyOk : LayoutCopyOk stored5 := by
  intro v hv
  obtain rfl : (⟨.p0, 2⟩ : LayoutVersion) = v := Option.some.inj hv
  exact stored5_layout.trans (congrArg (LayoutClass.valid 2) (by decide +kernel))

theorem witness_DirectoryInv : DirectoryInv stored5 := by
  refine ⟨⟨fun r => ?_, fun r r' hr => ?_⟩, ⟨fun h => absurd rfl h, fun h => absurd h (by decide), fun h => ?_,
    fun _ => by decide +kernel, fun v hv => ?_⟩, ?_⟩
  · rcases stored5_slots r with ⟨_, h⟩ | ⟨_, h⟩ <;> rw [h]
    · refine ⟨fun c g hc => ?_, fun hc => by simp [slotWith] at hc, fun e hc => ?_⟩
      · simp only [slotWith, Content.valid.injEq] at hc
        rw [← hc.2]
        decide
      · simp only [slotWith, Option.some.injEq] at hc
        rw [← hc]
        decide
    · exact ⟨fun c g hc => by simp [Slot.undefined] at hc, fun _ => rfl, fun e hc => by simp [Slot.undefined] at hc⟩
  · rcases stored5_slots r with ⟨h1, h⟩ | ⟨_, h⟩ <;> rcases stored5_slots r' with ⟨h1', h'⟩ | ⟨_, h'⟩ <;> rw [h, h']
    · exact absurd (h1.trans h1'.symm) hr
    all_goals rfl
  · have hd : stored5.device = .ready := rfl
    simp [hd] at h
  · obtain rfl : (⟨.p0, 2⟩ : LayoutVersion) = v := Option.some.inj hv
    decide
  · have hq : stored5.queue = [] := rfl
    simp [LinkOk, stored5_engine, Engine.reset, hq]

theorem readExtent_head (m : Mem) (pl : Plane) (base n : Nat) :
    (readExtent m pl base (n + 1)).getD 0 0 = memRead m (pageAddress pl base) := by
  simp [readExtent, memReadBytes, Nat.mul_add, List.range_succ_eq_map]

theorem witness_OtherCopyOk : OtherCopyOk stored5 := by
  intro r e pl b g he hc hb hv
  rcases stored5_slots r with ⟨rfl, h⟩ | ⟨_, h⟩ <;> rw [h] at he hc
  · obtain rfl : rec24 = e := Option.some.inj he
    cases pl with
    | p0 => exact absurd rfl hc
    | p1 =>
      have hm : memRead stored5.array (pageAddress .p1 rec24.basePage) = 0xFF :=
        (readExtent_head _ _ _ 0).symm.trans (congrArg (fun l => l.getD 0 0) stored5_other)
      rw [hm] at hb
      have : b = 0xFF := by
        have key : ∀ b : Byte, b ||| 0xFF = b → b = 0xFF := by decide +kernel
        exact key b hb
      rw [this, classWith, show rec24.basePage = 100 from rfl, show extentPages rec24.length = 1 by decide,
        stored5_other, show classifyRecord 5 rec24.length .p1 (0xFF :: (List.replicate 32 0xFF).drop 1) = .noImage by
          decide +kernel] at hv
      exact absurd hv (by simp)
  · simp [Slot.undefined] at he

/-- The premises of the statements about current copies, of the directory and of the engine's pages. -/
theorem witness_CurrentCopiesStayValid :
    (ArrayOk stored5 ∧ DirectoryInv stored5 ∧ PlacesOk stored5 ∧ BufferOk stored5 ∧ ProgressOk stored5 ∧ ImagesOk stored5) ∧
    step stored5 = .next stored5 ∧ HeaderOk stored5 ∧ stored5.device ≠ .mounting ∧ OtherCopyOk stored5 ∧
    LayoutOk stored5 ∧ LayoutCopyOk stored5 ∧ ¬FormatErases stored5 := by
  have he : stored5.engine.entry = none := rfl
  have hr : ∀ p, stored5.reads.get p = none := fun p => by cases p <;> rfl
  have hst : stored5.engine.step = none := rfl
  refine ⟨⟨witness_ArrayOk, witness_DirectoryInv, by simp [PlacesOk, he, hst, hr], by simp [BufferOk, he],
    by simp [ProgressOk, he], fun r e c g h1 h2 => ?_⟩, rfl, by simp [HeaderOk, he], by decide, witness_OtherCopyOk,
    .inr ⟨by decide +kernel, witness_LayoutCopyOk⟩, witness_LayoutCopyOk, by simp [FormatErases, he]⟩
  rcases stored5_slots r with ⟨rfl, h⟩ | ⟨_, h⟩ <;> rw [h] at h1 h2
  · simp only [slotWith, Option.some.injEq, Content.valid.injEq] at h1 h2
    obtain ⟨rfl, rfl⟩ := h2
    subst h1
    exact stored5_image
  · simp [Slot.undefined] at h1

/-- A step that changes the layout fields: mount selects the layout copy it finds. -/
theorem witness_CurrentCopiesStayValid_mount :
    (ArrayOk oneLayout ∧ DirectoryInv oneLayout ∧ PlacesOk oneLayout ∧ BufferOk oneLayout ∧ ProgressOk oneLayout ∧
      ImagesOk oneLayout) ∧
    ∃ t, exec .mountLayoutSelected oneLayout = .next t ∧ t.dir.layout ≠ oneLayout.dir.layout := by
  have he : oneLayout.engine.entry = none := rfl
  have hst : oneLayout.engine.step = none := rfl
  have hq : oneLayout.queue = [] := rfl
  have hd : oneLayout.device = .mounting := rfl
  have hm : oneLayout.mount = .layout := rfl
  have hl : oneLayout.dir.layout = none := rfl
  have hr : ∀ p, oneLayout.reads.get p = none := fun p => by cases p <;> rfl
  have hs : ∀ r, slotOf oneLayout r = Slot.undefined := by decide +kernel
  have ha : ArrayOk oneLayout :=
    (congrArg memWf arrayNone_eq).trans (memWriteBytes_wf _ _ _ (by rw [layoutImage_none.1]; decide) (by decide))
  refine ⟨⟨ha, ⟨⟨fun r => ?_, fun r r' _ => ?_⟩, ?_,
    by simp [LinkOk, he, hq]⟩, by simp [PlacesOk, he, hst, hr], by simp [BufferOk, he], by simp [ProgressOk, he],
    by simp [ImagesOk, hs, Slot.undefined]⟩, ?_⟩
  · rw [hs r]
    exact ⟨fun c g hc => by simp [Slot.undefined] at hc, fun _ => rfl, fun e hc => by simp [Slot.undefined] at hc⟩
  · rw [hs r, hs r']
    rfl
  · simp [DeviceOk, NoneDefined, he, hq, hd, hm, hl, hs, Slot.undefined]
  · have hc : selectLayout (classifyLayout (readLayout oneLayout .p0)) (classifyLayout (readLayout oneLayout .p1)) =
        .ready ⟨.p1, 2⟩ (Table.fill 128 none) := by
      rw [readLayout, readLayout, Config.layoutPages, witness_MountRuns_layout_class.1, witness_MountRuns_layout_class.2]
      rfl
    simp only [exec, execMountLayoutSelected, hm, if_pos, hc]
    exact ⟨_, rfl, by decide +kernel⟩

/-- The 768 bytes that follow the header page of a layout with no record defined, in copy 0. -/
@[irreducible] def arrayZeros : Mem := memWriteBytes [] 32 (List.replicate 768 0)

theorem arrayZeros_eq : arrayZeros = memWriteBytes [] 32 (List.replicate 768 0) := by
  unfold arrayZeros
  rfl

theorem noEntries_bytes : ((Table.fill 128 (none : Option LayoutEntry)).cells.flatMap layoutEntryBytes) =
    List.replicate 768 0 := by decide +kernel

/-- A layout image with no record defined: a header page, then zeros. -/
theorem layoutImage_noEntries (g : Gen) :
    ∃ h : List Byte, h.length = 32 ∧ layoutImage g (Table.fill 128 none).cells = h ++ List.replicate 768 0 :=
  ⟨padBlank 32 (layoutHeader g ++ genBytes (crc16 (layoutHeader g ++ List.replicate 768 0))), rfl, by
    rw [layoutImage, noEntries_bytes]⟩

/-- The pages of that image after its header. -/
theorem imagePage_noEntries (g : Gen) (j : Nat) (h1 : 1 ≤ j) (h2 : j < 25) :
    imagePage (Table.ofList 800 0xFF (layoutImage g (Table.fill 128 none).cells)).cells j = Table.fill 32 0 := by
  obtain ⟨h, hl, he⟩ := layoutImage_noEntries g
  obtain ⟨k, rfl⟩ : ∃ k, j = k + 1 := ⟨j - 1, by omega⟩
  have hc : (Table.ofList 800 0xFF (layoutImage g (Table.fill 128 none).cells)).cells = h ++ List.replicate 768 0 := by
    rw [he]
    exact List.take_left' (by rw [List.length_append, hl, List.length_replicate])
  have hd : (h ++ List.replicate 768 (0 : Byte)).drop (32 * (k + 1)) = List.replicate (768 - 32 * k) 0 := by
    rw [List.drop_append, hl, List.drop_eq_nil_of_le (by omega), List.drop_replicate, List.nil_append,
      show 768 - (32 * (k + 1) - 32) = 768 - 32 * k by omega]
  apply Table.cells_injective
  rw [imagePage, hc, hd]
  simp only [Table.ofList, Table.fill]
  rw [List.take_append_of_le_length (by rw [List.length_replicate]; omega), List.take_replicate,
    show min 32 (768 - 32 * k) = 32 by omega]

/-- The pages of the array that those of the image have gone to. -/
theorem readPage_arrayZeros (j : Nat) (h1 : 1 ≤ j) (h2 : j < 25) :
    readPage arrayZeros .p0 j = Table.fill 32 0 := by
  apply Table.ext_get
  intro i
  rw [Table.get_fill, arrayZeros_eq]
  have ha : pageAddress .p0 j + i.val = 32 + (32 * (j - 1) + i.val) := by
    simp only [pageAddress, planeIndex, Config.planeBytes, Config.pageBytes]
    omega
  have hi := i.isLt
  have hr := memRead_memWriteBytes_inside (List.replicate 768 (0 : Byte)) [] 32 (32 * (j - 1) + i.val)
    (by rw [List.length_replicate]; omega) (by rw [List.length_replicate]; decide) (by decide)
  simp only [readPage, Table.get, memReadBytes, List.getElem_map, List.getElem_range, ha, hr, List.getElem_replicate]

/-- READY with no record defined, and a second FORMAT whose header page alone is not programmed yet. -/
def formatEnds : State :=
  setArbiter .p0 { Arbiter.reset with holder := .engine }
    (setEngine { state := .program, entry := some ⟨.a, .layout .format⟩, detached := false, target := some .p0,
                 newGen := 1, step := some ⟨.program, 25, 25⟩, attempt := 1,
                 buffer := .image (Table.ofList 800 0xFF (layoutImage 1 (Table.fill 128 none).cells)),
                 basePage := 0, length := 0 }
      { ready with pending := [.programAttemptDone allBits], array := arrayZeros })

theorem formatEnds_page0 : readPage formatEnds.array .p0 0 = erasedPage := by
  apply Table.ext_get
  intro i
  have hi := i.isLt
  have ha : pageAddress .p0 0 + i.val = i.val := by simp [pageAddress, planeIndex]
  have hr := memRead_memWriteBytes_outside (List.replicate 768 (0 : Byte)) [] 32 i.val (.inl hi)
  have hb : memRead [] i.val = 0xFF := rfl
  have hz : formatEnds.array = memWriteBytes [] 32 (List.replicate 768 0) := arrayZeros_eq
  rw [hz, erasedPage, Table.get_fill]
  simp only [readPage, Table.get, memReadBytes, List.getElem_map, List.getElem_range, ha, hr, hb]

/-- The end of an attempt on a page of the array answers a next state. -/
theorem programAttempt_next (s : State) (cleared : PageBytes) (e : Entry) (st : EngineStep)
    (he : s.engine.entry = some e) (hs : s.engine.step = some st)
    (hw : (attemptUnderWay s st && decide (st.phase = .program)) = true) (hp : stepPage s st < Config.planePages) :
    ∃ t, exec (.programAttemptDone cleared) s = .next t := by
  simp only [exec, execProgramAttemptDone, he, hs, hw, hp, if_true]
  exact ⟨_, rfl⟩

/-- A FORMAT completes onto the layout fields as they are: copy 0, generation 1. -/
theorem witness_CurrentCopiesStayValid_format :
    (ArrayOk formatEnds ∧ DirectoryInv formatEnds ∧ PlacesOk formatEnds ∧ BufferOk formatEnds ∧ ProgressOk formatEnds ∧
      ImagesOk formatEnds) ∧
    LayoutCompletes formatEnds ∧ ∃ t, step formatEnds = .next t := by
  have he : formatEnds.engine.entry = some ⟨.a, .layout .format⟩ := rfl
  have hst : formatEnds.engine.step = some ⟨.program, 25, 25⟩ := rfl
  have ht : formatEnds.engine.target = some .p0 := rfl
  have hq : formatEnds.queue = [] := rfl
  have hd : formatEnds.device = .ready := rfl
  have hm : formatEnds.mount = .idle := rfl
  have hr : ∀ p, formatEnds.reads.get p = none := fun p => by cases p <;> rfl
  have hs : ∀ r, slotOf formatEnds r = Slot.undefined := by decide +kernel
  have hc : LayoutCompletes formatEnds :=
    ⟨allBits, [], .a, .format, ⟨.program, 25, 25⟩, .p0, rfl, rfl, rfl, rfl, rfl, rfl, rfl, by decide +kernel,
      (congrArg (fun x => programAttempt x _ allBits) formatEnds_page0).trans (programAttempt_erased_all _)⟩
  refine ⟨⟨?_, ⟨⟨fun r => ?_, fun r r' _ => ?_⟩, ?_, ?_⟩, ⟨by simp [hr], fun e st h1 h2 => ?_, fun h => ?_⟩,
    ⟨fun p r c g h => ?_, fun p op h => ?_⟩, fun e st j h1 h2 h3 h4 h5 => ?_, by simp [ImagesOk, hs, Slot.undefined]⟩,
    hc, ?_⟩
  · exact (congrArg memWf arrayZeros_eq).trans (memWriteBytes_wf _ _ _ (by rw [List.length_replicate]; decide)
      (by decide))
  · rw [hs r]
    exact ⟨fun c g hc => by simp [Slot.undefined] at hc, fun _ => rfl, fun e hc => by simp [Slot.undefined] at hc⟩
  · rw [hs r, hs r']
    rfl
  · have hl : formatEnds.dir.layout = some ⟨.p0, 1⟩ := rfl
    simp [DeviceOk, hd, hm, hl]
  · have ht' : formatEnds.engine.newGen = 1 := rfl
    refine ⟨by simp [he], fun p op h => ?_, fun p h r => by simp [hs r, Slot.undefined], by simp [hd], by simp [he],
      by simp [he], by simp [hq]⟩
    rw [he] at h
    cases h
    exact ⟨rfl, rfl⟩
  · rw [he] at h1
    rw [hst] at h2
    cases h1
    cases h2
    exact ⟨by decide, by decide, rfl⟩
  · rw [he] at h
    cases h
  · rw [he] at h
    cases h
  · rw [he] at h
    cases h
    rfl
  · rw [hst] at h2
    cases h2
    rw [show areaBase formatEnds + j = j from Nat.zero_add j]
    exact (readPage_arrayZeros j h4 h5).trans (imagePage_noEntries 1 j h4 h5).symm
  · exact programAttempt_next { formatEnds with pending := [] } allBits _ _ rfl rfl (by decide +kernel) (by decide +kernel)

theorem witness_CurrentCopiesAreUntouched :
    (slotOf stored5 5).entry = some rec24 ∧ (slotOf stored5 5).content = .valid .p0 3 ∧
    (∃ t, exec .timebasePeriodEnd stored5 = .next t) := ⟨by decide +kernel, by decide +kernel, ⟨_, rfl⟩⟩

theorem witness_GenerationsMoveBySuccessor :
    stored5.device ≠ .mounting ∧ (slotOf stored5 5).entry ≠ none ∧
    ∃ t, exec .timebasePeriodEnd stored5 = .next t ∧ t.device ≠ .mounting ∧ (slotOf t 5).entry ≠ none :=
  ⟨by decide +kernel, by decide +kernel, ⟨_, rfl, by decide +kernel, by decide +kernel⟩⟩

/-- The premises of the other invariants, where no port and no lock is busy. -/
theorem witness_invariants :
    TransportOk stored5 ∧ NoticesOk stored5 ∧ WatchOk stored5 ∧ LocksOk stored5 ∧
    (QueueOk stored5 ∧ ReadsOk stored5 ∧ StagingOk stored5) ∧ RightsOk stored5 ∧ PendingOk stored5 := by
  have hp : ∀ p, stored5.ports.get p = PortIf.reset := fun p => by cases p <;> rfl
  have hc : ∀ p, stored5.csLow.get p = false := fun p => by cases p <;> rfl
  have hn : ∀ p, stored5.notices.get p = [] := fun p => by cases p <;> rfl
  have hf : ∀ p, stored5.flags.get p = Flags.clear := fun p => by cases p <;> rfl
  have hs : ∀ p, stored5.sessions.get p = Session.reset := fun p => by cases p <;> rfl
  have hr : ∀ p, stored5.reads.get p = none := fun p => by cases p <;> rfl
  have hq : stored5.queue = [] := rfl
  have he := stored5_engine
  have hl := stored5_locks
  have hw : ∀ r p, (slotOf stored5 r).watch.get p = false := fun r p => by
    rcases stored5_slots r with ⟨_, h⟩ | ⟨_, h⟩ <;> rw [h] <;> cases p <;> rfl
  have hd : ∀ r, (slotOf stored5 r).deletePending = false := fun r => by
    rcases stored5_slots r with ⟨_, h⟩ | ⟨_, h⟩ <;> rw [h] <;> rfl
  refine ⟨by simp [TransportOk, PortOk, hp, hc, PortIf.reset], by simp [NoticesOk, hn, hf, Flags.clear],
    by simp [WatchOk, hw, hn], ⟨fun r => by rw [hl r]; exact ⟨rfl, rfl, rfl⟩, by simp [hl, Lock.free, waitsOn]⟩,
    ⟨by simp [QueueOk, hq, hs, he, Session.reset, Engine.reset], by simp [ReadsOk, hr],
      by simp [StagingOk, LayoutQueued, hq, hs, he, Session.reset, Engine.reset]⟩,
    by simp [RightsOk, hl, Lock.free], by simp [PendingOk, deletesUnderWay, hq, he, Engine.reset, hd]⟩

end Sys2Proof.Tests
end

/-! # The directory, the engine and the array at every command

What the invariants of chapters 1, 4, 8 and 9 speak of is a small part of the state: the slots' persistent parts and
contents, the layout fields, the device state and mount, the entry in the engine, and the array. Most commands leave all
of it alone (`Quiet`); `exec_effect` lists the others once, and every proof below is a case analysis of that list. -/

namespace Sys2Proof.Machine

open Sys2Proof

/-! ## What a command may leave alone -/

/-- A DEFINE entry has a legal place (R131). -/
def Placed (e : Entry) : Prop := ∀ r le, e.work = .layout (.define r le) → placementOk le.length le.basePage = true

/-- The directories agree but for watch sets and delete-pending marks, and an undefined slot stays as it is. -/
structure SameDir (s t : State) : Prop where
  entry : ∀ r, (slotOf t r).entry = (slotOf s r).entry
  content : ∀ r, (slotOf t r).content = (slotOf s r).content
  undef : ∀ r, slotOf s r = Slot.undefined → slotOf t r = Slot.undefined
  layout : t.dir.layout = s.dir.layout

/-- Two engines work on the same entry, at whatever step. -/
structure SameWork (x y : Engine) : Prop where
  entry : y.entry = x.entry
  target : y.target = x.target
  newGen : y.newGen = x.newGen
  basePage : y.basePage = x.basePage
  length : y.length = x.length
  buffer : y.buffer = x.buffer

/-- The directory, the device state and mount stay, and an entry that is new in the queue came outside MOUNTING, with a
legal place. -/
structure Steady (s t : State) : Prop where
  dir : SameDir s t
  device : t.device = s.device
  mount : t.mount = s.mount
  queue : ∀ e ∈ t.queue, e ∈ s.queue ∨ s.device ≠ .mounting ∧ Placed e

/-- Nothing happens to the directory, to the engine's work or to the array. -/
structure Quiet (s t : State) : Prop where
  steady : Steady s t
  work : SameWork s.engine t.engine
  step : t.engine.step = s.engine.step
  array : t.array = s.array

theorem SameDir.of_eq {s t : State} (h : t.dir = s.dir) : SameDir s t :=
  have hs : ∀ r, slotOf t r = slotOf s r := fun r => by simp only [slotOf, h]
  ⟨fun r => by rw [hs], fun r => by rw [hs], fun r hr => by rw [hs, hr], by rw [h]⟩

theorem SameDir.trans {s t u : State} (x : SameDir s t) (y : SameDir t u) : SameDir s u :=
  ⟨fun r => (y.entry r).trans (x.entry r), fun r => (y.content r).trans (x.content r),
    fun r h => y.undef r (x.undef r h), y.layout.trans x.layout⟩

/-- Replacing a slot by one with the same persistent part and content. -/
theorem sameDir_setSlot {s : State} {r : RecNo} {x : Slot} (he : x.entry = (slotOf s r).entry)
    (hc : x.content = (slotOf s r).content) (hu : slotOf s r = Slot.undefined → x = Slot.undefined) :
    SameDir s (setSlot r x s) := by
  refine ⟨fun q => ?_, fun q => ?_, fun q hq => ?_, rfl⟩ <;> rw [slotOf_setSlot] <;> split
  · subst_vars; exact he
  · rfl
  · subst_vars; exact hc
  · rfl
  · subst_vars; exact hu hq
  · exact hq

theorem SameWork.refl (x : Engine) : SameWork x x := ⟨rfl, rfl, rfl, rfl, rfl, rfl⟩

theorem SameWork.trans {x y z : Engine} (h : SameWork x y) (k : SameWork y z) : SameWork x z :=
  ⟨k.entry.trans h.entry, k.target.trans h.target, k.newGen.trans h.newGen, k.basePage.trans h.basePage,
    k.length.trans h.length, k.buffer.trans h.buffer⟩

/-- Where the directory, the device state and mount are equal and no entry joins the queue. -/
theorem Steady.of_eq {s t : State} (hd : SameDir s t) (hv : t.device = s.device) (hm : t.mount = s.mount)
    (hq : ∀ e ∈ t.queue, e ∈ s.queue) : Steady s t :=
  ⟨hd, hv, hm, fun e he => .inl (hq e he)⟩

theorem Steady.trans {s t u : State} (x : Steady s t) (y : Steady t u) : Steady s u := by
  refine ⟨x.dir.trans y.dir, y.device.trans x.device, y.mount.trans x.mount, fun e he => ?_⟩
  rcases y.queue e he with ht | ⟨hd, hp⟩
  · exact x.queue e ht
  · exact .inr ⟨by rwa [x.device] at hd, hp⟩

theorem Quiet.refl (s : State) : Quiet s s :=
  ⟨.of_eq (.of_eq rfl) rfl rfl fun _ h => h, .refl _, rfl, rfl⟩

theorem Quiet.trans {s t u : State} (x : Quiet s t) (y : Quiet t u) : Quiet s u :=
  ⟨x.steady.trans y.steady, x.work.trans y.work, y.step.trans x.step, y.array.trans x.array⟩

/-- The homes outside the directory, the queue, the engine, mount, the device state and the array. -/
def quietHomes : Homes :=
  { pending := true, ports := true, clearLow := true, csLow := true, sessions := true, results := true
    arbiters := true, reads := true, locks := true, reports := true, notices := true, flags := true, masks := true
    rc := true }

theorem Only.steady {h : Homes} {s t : State} (x : Only h s t)
    (hh : h.le { quietHomes with engine := true, array := true } = true) : Steady s t := by
  have y := x.mono hh
  exact .of_eq (.of_eq (y.dir rfl)) (y.device rfl) (y.mount rfl) fun e he => by rwa [y.queue rfl] at he

theorem Only.quiet {h : Homes} {s t : State} (x : Only h s t) (hh : h.le quietHomes = true) : Quiet s t := by
  have y := x.mono hh
  refine ⟨y.steady (by decide), ?_, by rw [y.engine rfl], y.array rfl⟩
  rw [y.engine rfl]
  exact .refl _

/-- A slot that keeps its persistent part and content is replaced. -/
theorem quiet_setSlot {s : State} {r : RecNo} {x : Slot} (he : x.entry = (slotOf s r).entry)
    (hc : x.content = (slotOf s r).content) (hu : slotOf s r = Slot.undefined → x = Slot.undefined) :
    Quiet s (setSlot r x s) :=
  ⟨.of_eq (sameDir_setSlot he hc hu) rfl rfl fun _ h => h, .refl _, rfl, rfl⟩

/-! ## Requests: the checks that they share -/

theorem refuse_quiet (p : Port) (c : ResultCode) (s : State) : Quiet s (refuse p c s) :=
  (refuse_only p c s).quiet (by decide)

theorem respond_quiet (p : Port) (c : ResultCode) (b : List Byte) (s : State) : Quiet s (respond p c b s) :=
  (respond_only p c b s).quiet (by decide)

section Checks

variable {P : State → Prop} {p : Port} {s : State} (refused : ∀ c, P (refuse p c s))

include refused

theorem whenReady_cases {serve : State → State} (h : s.device = .ready → P (serve s)) : P (whenReady p serve s) := by
  unfold whenReady
  split
  · exact h ‹_›
  · exact refused _

theorem whenSession_cases {st : SessionState} {serve : State → State} (h : P (serve s)) :
    P (whenSession p st serve s) := by
  unfold whenSession
  split
  · exact h
  · exact refused _

theorem withBody_cases {α : Type} {operand : Option α} {serve : α → State → State} (h : ∀ a, P (serve a s)) :
    P (withBody p operand serve s) := by
  unfold withBody
  split
  · exact h _
  · exact refused _

theorem withRecord_cases {r : RecNo} {serve : LayoutEntry → State → State}
    (h : ∀ e, (slotOf s r).entry = some e → P (serve e s)) : P (withRecord p r serve s) := by
  unfold withRecord
  split
  · exact h _ ‹_›
  · exact refused _

theorem withContent_cases {r : RecNo} {serve : Plane → State → State} (h : ∀ c, P (serve c s)) :
    P (withContent p r serve s) := by
  unfold withContent
  split
  · exact h _
  all_goals exact refused _

theorem refuseIf_cases {bad : Bool} {c : ResultCode} {serve : State → State} (h : bad = false → P (serve s)) :
    P (refuseIf bad p c serve s) := by
  unfold refuseIf
  split
  · exact refused _
  · rename_i hb
    exact h (by simpa using hb)

/-- The checks of R129 before the operation's own. -/
theorem serveLayout_cases {α : Type} {admitted : Bool} {operand : Option α} {own : α → State → State}
    (h : admitted = true → ∀ a, P (own a s)) : P (serveLayout p admitted operand own s) := by
  refine refuseIf_cases refused fun _ => refuseIf_cases refused fun ha => ?_
  refine whenSession_cases refused (withBody_cases refused fun a => h (by simpa using ha) a)

/-- Checks 6 and 7 of R129, then the entry joins the queue. -/
theorem acceptLayout_cases {op : LayoutOp} {effect : State → State} (h : P (effect (enqueue p (.layout op) s))) :
    P (acceptLayout p op effect s) :=
  refuseIf_cases refused fun _ => refuseIf_cases refused fun _ => h

end Checks

/-! ## Frames -/

theorem writeReply_quiet (p : Port) (s : State) : Quiet s (writeReply p s) := (writeReply_only p s).quiet (by decide)

theorem riseFrame_quiet (p : Port) (bytes : List Byte) (extra : Nat) {judge : State → State} (s : State)
    (x : ∀ s, Quiet s (judge s)) : Quiet s (riseFrame p bytes extra judge s) := by
  have ends : Quiet s (endFrame p s) := (endFrame_only p s).quiet (by decide)
  unfold riseFrame
  repeat' split
  · exact ends
  · exact ends.trans (x _)
  · exact .refl s
  · exact ends
  · exact .refl s

theorem takeFrame_quiet (p : Port) (bytes : List Byte) (extra : Nat) {judge : State → State} (part : FramePart)
    (s : State) (x : ∀ s, Quiet s (judge s)) : Quiet s (takeFrame p bytes extra judge part s) := by
  have falls : ∀ s, Quiet s (fallFrame p s) := fun s => (fallFrame_only p s).quiet (by decide)
  have clocks : ∀ s, Quiet s (clockFrame p bytes extra s) := fun s => (clockFrame_only p bytes extra s).quiet (by decide)
  cases part with
  | whole => exact ((falls s).trans (clocks _)).trans (riseFrame_quiet p bytes extra _ x)
  | fall => exact falls s
  | clock => exact clocks s
  | rise => exact riseFrame_quiet p bytes extra s x
  | reply => exact .refl s

/-- A request's frame, or a part of one, is as quiet as its service. -/
theorem takeRequest_quiet (c : RequestCode) (p : Port) (tag : Byte) (body : List Byte) (part : FramePart)
    {serve : State → State} (s : State) (x : ∀ s, Quiet s (serve s)) :
    Quiet s (takeRequest c p tag body part serve s) := by
  have judged : ∀ s, Quiet s (judgeRequest p tag body serve s) := fun s => by
    unfold judgeRequest
    repeat' split
    · exact (setPort_only p _ s).quiet (by decide)
    · exact (setPort_only p _ s).quiet (by decide)
    · exact ((setPort_only p _ s).quiet (by decide)).trans (x _)
  have taken := takeFrame_quiet p (requestFrameBytes c tag body) 0 part s judged
  have written := taken.trans (writeReply_quiet p _)
  unfold takeRequest
  cases part with
  | whole => simp only; split; exacts [taken, written]
  | reply => simp only; split; exacts [written, taken]
  | fall | clock | rise => exact taken

/-! ## Requests: the services -/

theorem startRead_quiet (p : Port) (k : ReadKind) (r : RecNo) (e : LayoutEntry) (c : Plane) (s : State) :
    Quiet s (startRead p k r e c s) :=
  (startRead_only p k r e c s).quiet (by decide)

theorem serveNop_quiet (p : Port) (body : List Byte) (s : State) : Quiet s (serveNop p body s) :=
  whenReady_cases (refuse_quiet p · s) fun _ => respond_quiet _ _ _ _

theorem serveQueryRecord_quiet (p : Port) (body : List Byte) (s : State) : Quiet s (serveQueryRecord p body s) := by
  have no := (refuse_quiet p · s)
  exact whenReady_cases no fun _ => withBody_cases no fun _ => respond_quiet _ _ _ _

theorem serveDeviceStatus_quiet (p : Port) (body : List Byte) (s : State) : Quiet s (serveDeviceStatus p body s) :=
  withBody_cases (refuse_quiet p · s) fun _ => respond_quiet _ _ _ _

theorem serveReadRecord_quiet (p : Port) (body : List Byte) (s : State) : Quiet s (serveReadRecord p body s) := by
  have no := (refuse_quiet p · s)
  exact whenReady_cases no fun _ => withBody_cases no fun _ => withRecord_cases no fun _ _ => refuseIf_cases no fun _ =>
    withContent_cases no fun _ => refuseIf_cases no fun _ => startRead_quiet _ _ _ _ _ _

theorem openBlank_quiet (p : Port) (r : RecNo) (e : LayoutEntry) (s : State) : Quiet s (openBlank p r e s) :=
  ((setSession_only p _ s).quiet (by decide)).trans (respond_quiet _ _ _ _)

theorem serveOpenRecord_quiet (p : Port) (body : List Byte) (s : State) : Quiet s (serveOpenRecord p body s) := by
  have no := (refuse_quiet p · s)
  refine whenReady_cases no fun _ => whenSession_cases no <| withBody_cases no fun (r, m) =>
    withRecord_cases no fun e _ => refuseIf_cases no fun _ => refuseIf_cases no fun _ => ?_
  cases m with
  | blank => exact openBlank_quiet _ _ _ _
  | copy => exact withContent_cases no fun _ => startRead_quiet _ _ _ _ _ _

theorem storeStaged_quiet (p : Port) (n o : Nat) (d : List Byte) (s : State) : Quiet s (storeStaged p n o d s) :=
  (storeStaged_only p n o d s).quiet (by decide)

theorem serveStage_quiet (p : Port) (body : List Byte) (s : State) : Quiet s (serveStage p body s) := by
  have no := (refuse_quiet p · s)
  refine whenReady_cases no fun _ => whenSession_cases no ?_
  split
  · split
    · exact storeStaged_quiet _ _ _ _ _
    · exact respond_quiet _ _ _ _
  · exact respond_quiet _ _ _ _

theorem serveAppend_quiet (p : Port) (body : List Byte) (s : State) : Quiet s (serveAppend p body s) := by
  have no := (refuse_quiet p · s)
  exact whenReady_cases no fun _ => whenSession_cases no <| withBody_cases no fun _ => storeStaged_quiet _ _ _ _ _

/-- An entry with a legal place joins the queue outside MOUNTING (R59). -/
theorem enqueue_quiet (p : Port) (w : Work) (s : State) (hd : s.device ≠ .mounting) (hw : Placed ⟨p, w⟩) :
    Quiet s (enqueue p w s) := by
  refine Quiet.trans ?_ (respond_quiet _ _ _ _)
  refine ⟨⟨.of_eq rfl, rfl, rfl, fun e he => ?_⟩, .refl _, rfl, rfl⟩
  rcases List.mem_append.mp he with he | he
  · exact .inl he
  · exact .inr ⟨hd, by rwa [List.mem_singleton.mp he]⟩

theorem serveCommit_quiet (p : Port) (body : List Byte) (s : State) : Quiet s (serveCommit p body s) := by
  have no := (refuse_quiet p · s)
  refine whenReady_cases no fun hd => whenSession_cases no <| withBody_cases no fun c => refuseIf_cases no fun _ =>
    refuseIf_cases no fun _ => refuseIf_cases no fun _ => ?_
  unfold acceptCommit
  split
  · exact enqueue_quiet _ _ _ (by simp [hd]) fun _ _ h => by simp at h
  · exact no _

theorem clearPending_quiet (r : RecNo) (s : State) : Quiet s (clearPending r s) :=
  quiet_setSlot rfl rfl fun h => by rw [h]; rfl

theorem undoEntry_quiet (e : Entry) (s : State) : Quiet s (undoEntry e s) := by
  unfold undoEntry
  split
  · exact clearPending_quiet _ _
  · exact .refl s

/-- The queue loses entries (R61). -/
theorem setQueue_quiet {q : List Entry} {s : State} (h : ∀ e ∈ q, e ∈ s.queue) : Quiet s (setQueue q s) :=
  ⟨.of_eq (.of_eq rfl) rfl rfl h, .refl _, rfl, rfl⟩

theorem removeEntry_quiet (p : Port) (s : State) : Quiet s (removeEntry p s) := by
  have removed : Quiet s (setQueue (s.queue.filter fun e => decide (e.port ≠ p)) s) :=
    setQueue_quiet fun e he => (List.mem_filter.mp he).1
  simp only [removeEntry]
  split
  · exact removed.trans (undoEntry_quiet _ _)
  · exact removed

theorem setSession_quiet (p : Port) (x : Session) (s : State) : Quiet s (setSession p x s) :=
  (setSession_only p x s).quiet (by decide)

theorem serveAbandon_quiet (p : Port) (body : List Byte) (s : State) : Quiet s (serveAbandon p body s) := by
  have no := (refuse_quiet p · s)
  refine whenReady_cases no fun _ => withBody_cases no fun _ => ?_
  split
  · exact respond_quiet _ _ _ _
  · exact (setSession_quiet _ _ _).trans (respond_quiet _ _ _ _)
  · exact ((removeEntry_quiet _ _).trans (setSession_quiet _ _ _)).trans (respond_quiet _ _ _ _)
  · exact no _

theorem serveFetchCommitResult_quiet (p : Port) (body : List Byte) (s : State) :
    Quiet s (serveFetchCommitResult p body s) := by
  have no := (refuse_quiet p · s)
  refine whenReady_cases no fun _ => withBody_cases no fun _ => ?_
  split
  · exact respond_quiet _ _ _ _
  · exact no _

theorem setLock_quiet (r : RecNo) (x : Lock) (s : State) : Quiet s (setLock r x s) :=
  (setLock_only r x s).quiet (by decide)

theorem handOn_quiet (r : RecNo) (s : State) : Quiet s (handOn r s) := (handOn_only r s).quiet (by decide)

theorem lockRecord_quiet (p : Port) (r : RecNo) (lease wait : Nat) (s : State) :
    Quiet s (lockRecord p r lease wait s) := by
  simp only [lockRecord]
  repeat' split
  · exact (setLock_quiet _ _ _).trans (respond_quiet _ _ _ _)
  · exact (setLock_quiet _ _ _).trans (respond_quiet _ _ _ _)
  · exact respond_quiet _ _ _ _
  · exact refuse_quiet _ _ _
  · exact (setLock_quiet _ _ _).trans (respond_quiet _ _ _ _)

theorem serveLock_quiet (p : Port) (body : List Byte) (s : State) : Quiet s (serveLock p body s) := by
  have no := (refuse_quiet p · s)
  exact whenReady_cases no fun _ => withBody_cases no fun _ => withRecord_cases no fun _ _ => refuseIf_cases no fun _ =>
    refuseIf_cases no fun _ => lockRecord_quiet _ _ _ _ _

theorem unlockRecord_quiet (p : Port) (r : RecNo) (s : State) : Quiet s (unlockRecord p r s) := by
  simp only [unlockRecord]
  repeat' split
  · exact (handOn_quiet _ _).trans (respond_quiet _ _ _ _)
  · exact (setLock_quiet _ _ _).trans (respond_quiet _ _ _ _)
  · exact refuse_quiet _ _ _

theorem serveUnlock_quiet (p : Port) (body : List Byte) (s : State) : Quiet s (serveUnlock p body s) := by
  have no := (refuse_quiet p · s)
  exact whenReady_cases no fun _ => withBody_cases no fun _ => withRecord_cases no fun _ _ => unlockRecord_quiet _ _ _

theorem serveFetchLockReport_quiet (p : Port) (body : List Byte) (s : State) :
    Quiet s (serveFetchLockReport p body s) := by
  have no := (refuse_quiet p · s)
  exact whenReady_cases no fun _ => withBody_cases no fun _ => respond_quiet _ _ _ _

theorem serveWatch_quiet (p : Port) (body : List Byte) (s : State) : Quiet s (serveWatch p body s) := by
  have no := (refuse_quiet p · s)
  refine whenReady_cases no fun _ => withBody_cases no fun r => withRecord_cases no fun e he => refuseIf_cases no fun _ => ?_
  have watched : Quiet s (setSlot r { slotOf s r with watch := (slotOf s r).watch.set p true } s) :=
    quiet_setSlot rfl rfl fun h => by simp [h, Slot.undefined] at he
  exact watched.trans (respond_quiet _ _ _ _)

/-- A port that leaves a watch set changes nothing of an undefined slot (R114). -/
theorem stopWatching_quiet (r : RecNo) (p : Port) (s : State) : Quiet s (stopWatching r p s) := by
  have left : Quiet s (setSlot r { slotOf s r with watch := (slotOf s r).watch.set p false } s) :=
    quiet_setSlot rfl rfl fun h => by rw [h]; cases p <;> rfl
  exact left.trans ((dropNotice_only r p _).quiet (by decide))

theorem serveUnwatch_quiet (p : Port) (body : List Byte) (s : State) : Quiet s (serveUnwatch p body s) := by
  have no := (refuse_quiet p · s)
  exact whenReady_cases no fun _ => withBody_cases no fun _ => (stopWatching_quiet _ _ _).trans (respond_quiet _ _ _ _)

theorem serveFetchNotice_quiet (p : Port) (body : List Byte) (s : State) : Quiet s (serveFetchNotice p body s) := by
  have no := (refuse_quiet p · s)
  refine whenReady_cases no fun _ => withBody_cases no fun _ => ?_
  split
  · exact no _
  · exact ((setNotices_only _ _ _).quiet (by decide)).trans (respond_quiet _ _ _ _)

theorem serveAcknowledge_quiet (p : Port) (body : List Byte) (s : State) : Quiet s (serveAcknowledge p body s) :=
  withBody_cases (refuse_quiet p · s) fun _ => ((setFlags_only _ _ _).quiet (by decide)).trans (respond_quiet _ _ _ _)

theorem serveSetAttentionMask_quiet (p : Port) (body : List Byte) (s : State) :
    Quiet s (serveSetAttentionMask p body s) :=
  withBody_cases (refuse_quiet p · s) fun _ => ((setMask_only _ _ _).quiet (by decide)).trans (respond_quiet _ _ _ _)

theorem serveFormat_quiet (p : Port) (body : List Byte) (s : State) : Quiet s (serveFormat p body s) := by
  have no := (refuse_quiet p · s)
  refine serveLayout_cases no fun ha _ => refuseIf_cases no fun _ => acceptLayout_cases no ?_
  exact enqueue_quiet _ _ _ (by simpa using ha) fun _ _ h => by simp at h

theorem serveDefine_quiet (p : Port) (body : List Byte) (s : State) : Quiet s (serveDefine p body s) := by
  have no := (refuse_quiet p · s)
  refine serveLayout_cases no fun ha (r, e) => refuseIf_cases no fun _ => refuseIf_cases no fun hp => refuseIf_cases no fun _ =>
    acceptLayout_cases no ?_
  refine enqueue_quiet _ _ _ (by simp [of_decide_eq_true ha]) fun _ _ h => ?_
  simp only [Work.layout.injEq, LayoutOp.define.injEq] at h
  obtain ⟨-, rfl⟩ := h
  simpa using hp

/-- The acceptance of a DELETE of a defined record (R45, R132). -/
theorem markDeleted_quiet (r : RecNo) (s : State) (h : (slotOf s r).entry ≠ none) : Quiet s (markDeleted r s) := by
  have marked : Quiet s (setSlot r { slotOf s r with deletePending := true } s) :=
    quiet_setSlot rfl rfl fun hu => absurd (by rw [hu]; rfl) h
  exact marked.trans ((Only.forPorts (refuseOpen_only r) _).quiet (by decide))

theorem serveDelete_quiet (p : Port) (body : List Byte) (s : State) : Quiet s (serveDelete p body s) := by
  have no := (refuse_quiet p · s)
  refine serveLayout_cases no fun ha r => withRecord_cases no fun e he => refuseIf_cases no fun _ => acceptLayout_cases no ?_
  have queued : Quiet s (enqueue p (.layout (.delete r)) s) :=
    enqueue_quiet _ _ _ (by simp [of_decide_eq_true ha]) fun _ _ h => by simp at h
  exact queued.trans (markDeleted_quiet r _ (by rw [queued.steady.dir.entry, he]; simp))

theorem serveSetAccess_quiet (p : Port) (body : List Byte) (s : State) : Quiet s (serveSetAccess p body s) := by
  have no := (refuse_quiet p · s)
  refine serveLayout_cases no fun ha _ => withRecord_cases no fun _ _ => acceptLayout_cases no ?_
  exact enqueue_quiet _ _ _ (by simp [of_decide_eq_true ha]) fun _ _ h => by simp at h

theorem serveRestart_quiet (p : Port) (body : List Byte) (s : State) : Quiet s (serveRestart p body s) := by
  have no := (refuse_quiet p · s)
  exact refuseIf_cases no fun _ => refuseIf_cases no fun _ => withBody_cases no fun _ =>
    ((setRc_only _ _).quiet (by decide)).trans (respond_quiet _ _ _ _)

/-! ## Port clear -/

theorem clearSession_quiet (p : Port) (s : State) : Quiet s (clearSession p s) := by
  unfold clearSession
  refine Quiet.trans ?_ (setSession_quiet _ _ _)
  split
  · exact removeEntry_quiet p s
  · exact .refl s

theorem detachEntry_quiet (p : Port) (s : State) : Quiet s (detachEntry p s) := by
  unfold detachEntry
  repeat' split
  · exact ⟨.of_eq (.of_eq rfl) rfl rfl fun _ h => h, ⟨rfl, rfl, rfl, rfl, rfl, rfl⟩, rfl, rfl⟩
  · exact .refl s
  · exact .refl s

theorem leaveWatchSets_quiet (p : Port) (s : State) : Quiet s (leaveWatchSets p s) := by
  have slots : ∀ r, slotOf (leaveWatchSets p s) r = { slotOf s r with watch := (slotOf s r).watch.set p false } :=
    fun r => Table.get_map _ _ _
  refine ⟨.of_eq ⟨fun r => by rw [slots], fun r => by rw [slots], fun r h => ?_, rfl⟩ rfl rfl fun _ h => h, .refl _, rfl,
    rfl⟩
  rw [slots, h]
  cases p <;> rfl

theorem clearPort_quiet (p : Port) (s : State) : Quiet s (clearPort p s) := by
  have transport : Quiet s (clearTransport p s) := (setPort_only p _ s).quiet (by decide)
  have reads := transport.trans ((clearRead_only p _).quiet (by decide))
  have engine := (reads.trans (clearSession_quiet p _)).trans (detachEntry_quiet p _)
  have locks := (engine.trans ((setResult_only p none _).quiet (by decide))).trans ((clearLocks_only p _).quiet (by decide))
  exact (locks.trans (leaveWatchSets_quiet p _)).trans ((clearNotices_only p _).quiet (by decide))

end Sys2Proof.Machine

namespace Sys2Proof.Machine

open Sys2Proof

/-! ## The list of what a command does -/

/-- The page that a step works on, as it stands. -/
def stepOld (s : State) (st : EngineStep) : PageBytes := readPage s.array (stepPlane s st) (stepPage s st)

/-- What an attempt of a step, whole or cut off, may leave of its page (R20 to R22, R70). -/
inductive Attempted (s : State) (st : EngineStep) : PageBytes → Prop
  | erase (raised : PageBytes) (h : phaseState st.phase = .erase) : Attempted s st (eraseAttempt (stepOld s st) raised)
  | program (cleared : PageBytes) (h : st.phase = .program) :
      Attempted s st (programAttempt (stepOld s st) (stepContent s st) cleared)
  | invalidate (cleared : PageBytes) (h : st.phase = .invalidate) :
      Attempted s st (programAttempt (stepOld s st) invalidationContent cleared)

/-- The page is as its step is to leave it (R69). -/
def Passes (s : State) (st : EngineStep) (x : PageBytes) : Prop :=
  phaseState st.phase = .erase ∧ x = erasedPage ∨ st.phase = .program ∧ x = stepContent s st

/-- An attempt of the engine's step ends and leaves `x` (R69). -/
structure PageStep (s : State) (e : Entry) (st : EngineStep) (x : PageBytes) : Prop where
  entry : s.engine.entry = some e
  step : s.engine.step = some st
  page : stepPage s st < Config.planePages
  left : Attempted s st x

/-- The state in which the engine goes on from an attempt. -/
abbrev stepLeft (s : State) (st : EngineStep) (x : PageBytes) : State := leavePage (stepPlane s st) (stepPage s st) x s

/-- Mount examines a further slot, or ends in READY (R150, R151). -/
structure MountTail (u t : State) : Prop where
  dir : t.dir = u.dir
  engine : t.engine = u.engine
  queue : t.queue = u.queue
  array : t.array = u.array
  goes : (∃ r, t.mount = .records r ∧ t.device = u.device) ∨ t.mount = .idle ∧ t.device = .ready

/-- What mount makes of the layout copy that it selects (R147). -/
abbrev mounted (s : State) (v : LayoutVersion) (entries : Table 128 (Option LayoutEntry)) : State :=
  setSlots (entries.map fun e => { Slot.undefined with entry := e }) (setLayout (some v) s)

/-- What mount makes of a slot (R150). -/
abbrev slotMounted (s : State) (r : RecNo) (e : LayoutEntry) : State :=
  setSlot r { slotOf s r with content := mountContent s r e } s

/-- Everything that a command can do to the directory, the engine's work and the array. -/
inductive Effect (s : State) : Instr → State → Prop
  | quiet {i t} (h : Quiet s t) : Effect s i t
  | reset {i} (src : ResetSource) (cut : PageBytes) : Effect s i (deviceReset src cut s)
  | start {i e rest} (hq : s.queue = e :: rest) (ha : startAllowed s = true) : Effect s i (startEntry e (setQueue rest s))
  | advances {i e st st' x} (h : PageStep s e st x) (hx : Passes s st x) (hn : nextStep st = some st') :
      Effect s i (askStep st' 1 (stepLeft s st x))
  | completes {mask e st x} (h : PageStep s e st x) (hp : st.phase = .program) (hx : x = stepContent s st)
      (hn : nextStep st = none) : Effect s (.programAttemptDone mask) (completeEntry e (stepLeft s st x))
  | again {i e st x} (n : Nat) (h : PageStep s e st x) (hx : ¬Passes s st x) (hp : st.phase ≠ .invalidate) :
      Effect s i (askStep st n (stepLeft s st x))
  | retreats {i p r c g st x} (h : PageStep s ⟨p, .record r c g⟩ st x) (hx : ¬Passes s st x)
      (hp : st.phase = .erase ∧ st.k ≠ 1 ∨ st.phase = .program ∧ st.k ≠ st.m) :
      Effect s i (askStep { phase := .invalidate, k := 1, m := st.m } 1 (stepLeft s st x))
  | fails {i e st x} (h : PageStep s e st x) (hx : ¬Passes s st x) : Effect s i (failFault e (stepLeft s st x))
  | mountStarts {i t} (hd : s.device = .mounting) (hm : s.mount = .idle) (ht : t.mount = .layout)
      (h : Only { quietHomes with mount := true } s t) : Effect s i t
  | mountEmpty {i} (d : DeviceState) (hm : s.mount = .layout) (hd : d = .unformatted ∨ d = .layoutDamaged) :
      Effect s i (endMount d s)
  | mountLayout {i v entries t} (hm : s.mount = .layout)
      (hs : selectLayout (classifyLayout (readLayout s .p0)) (classifyLayout (readLayout s .p1)) = .ready v entries)
      (h : MountTail (mounted s v entries) t) : Effect s i t
  | mountSlot {i r0 r e t} (hm : s.mount = .records r0) (he : (slotOf s r).entry = some e)
      (h : MountTail (slotMounted s r e) t) : Effect s i t
  | mountDone {i r0 t} (hm : s.mount = .records r0) (h : MountTail s t) : Effect s i t

theorem request_effect {c : RequestCode} {p : Port} {tag : Byte} {body : List Byte} {part : FramePart}
    {serve : State → State} {s t : State} {i : Instr} (x : ∀ s, Quiet s (serve s))
    (h : (.next (takeRequest c p tag body part serve s) : Host.Outcome State Fault Refusal) = .next t) :
    Effect s i t := by
  obtain rfl := Host.Outcome.next.inj h
  exact .quiet (takeRequest_quiet c p tag body part s x)

theorem frame_effect {p : Port} {bytes : List Byte} {extra : Nat} {judge : State → State} {part : FramePart}
    {s t : State} {i : Instr} (x : ∀ s, Quiet s (judge s))
    (h : (.next (takeFrame p bytes extra judge part s) : Host.Outcome State Fault Refusal) = .next t) :
    Effect s i t := by
  obtain rfl := Host.Outcome.next.inj h
  exact .quiet (takeFrame_quiet p bytes extra part s x)

/-! ### Reads -/

theorem endTenure_quiet (pl : Plane) (s : State) : Quiet s (endTenure pl s) := (endTenure_only pl s).quiet (by decide)

theorem setRead_quiet (p : Port) (x : Option Read) (s : State) : Quiet s (setRead p x s) :=
  (setRead_only p x s).quiet (by decide)

theorem answer_quiet (p : Port) (c : ResultCode) (b : List Byte) (s : State) : Quiet s (answer p c b s) :=
  (answer_only p c b s).quiet (by decide)

theorem execReadTenureEnd_quiet {pl : Plane} {s t : State} (h : execReadTenureEnd pl s = .next t) : Quiet s t := by
  unfold execReadTenureEnd at h
  repeat' split at h
  all_goals first | contradiction | obtain rfl := Host.Outcome.next.inj h
  · exact ((setRead_quiet _ _ _).trans (endTenure_quiet _ _)).trans (answer_quiet _ _ _ _)
  · exact .refl s
  · exact .refl s
  · exact .refl s
  · exact endTenure_quiet _ _
  · exact .refl s

theorem execOpenCopyLoad_quiet {pl : Plane} {s t : State} (h : execOpenCopyLoad pl s = .next t) : Quiet s t := by
  have ended : ∀ p, Quiet s (endTenure pl (setRead p none s)) := fun p => (setRead_quiet _ _ _).trans (endTenure_quiet _ _)
  unfold execOpenCopyLoad at h
  repeat' split at h
  all_goals first | contradiction | obtain rfl := Host.Outcome.next.inj h
  · exact (ended _).trans (answer_quiet _ _ _ _)
  · exact ((ended _).trans (setSession_quiet _ _ _)).trans (answer_quiet _ _ _ _)
  · exact .refl s
  · exact .refl s
  · exact .refl s
  · exact endTenure_quiet _ _
  · exact .refl s

/-! ### The engine -/

theorem execEngineStart_effect {s t : State} {i : Instr} (h : execEngineStart s = .next t) : Effect s i t := by
  obtain rfl := Host.Outcome.next.inj h
  split
  · split
    · rename_i e rest hq
      exact .start hq ‹_›
    · exact .quiet (.refl s)
  · exact .quiet (.refl s)

theorem nextStep_erase {st : EngineStep} (h : phaseState st.phase = .erase) : ∃ st', nextStep st = some st' := by
  obtain ⟨ph, k, m⟩ := st
  unfold nextStep
  split
  · exact ⟨_, rfl⟩
  · cases ph with
    | extentErase pl => cases pl <;> exact ⟨_, rfl⟩
    | formatFirst | formatSecond | erase => exact ⟨_, rfl⟩
    | program | invalidate => simp [phaseState] at h

/-- An attempt that failed: the step again, the invalidation, or the end of the entry (R69, R70, R138). -/
theorem stepFailed_effect {s : State} {e : Entry} {st : EngineStep} {x : PageBytes} {i : Instr} (h : PageStep s e st x)
    (hx : ¬Passes s st x) (hp : st.phase ≠ .invalidate) : Effect s i (stepFailed e st (stepLeft s st x)) := by
  unfold stepFailed
  split
  · exact .again _ h hx hp
  · obtain ⟨p, w⟩ := e
    unfold stepExhausted
    simp only
    split
    · split
      · exact .fails h hx
      · exact .retreats h hx (.inl ⟨‹_›, ‹_›⟩)
    · split
      · exact .fails h hx
      · exact .retreats h hx (.inr ⟨‹_›, ‹_›⟩)
    · exact .fails h hx

theorem execEraseAttemptDone_effect {raised : PageBytes} {s t : State} {i : Instr}
    (h : execEraseAttemptDone raised s = .next t) : Effect s i t := by
  unfold execEraseAttemptDone at h
  repeat' split at h
  all_goals first | contradiction | obtain rfl := Host.Outcome.next.inj h
  · rename_i e st he hst hw hp
    have hph : phaseState st.phase = .erase := of_decide_eq_true (Bool.and_eq_true_iff.mp hw).2
    have left : PageStep s e st (eraseAttempt (stepOld s st) raised) := ⟨he, hst, hp, .erase raised hph⟩
    split
    · obtain ⟨st', hn⟩ := nextStep_erase hph
      simp only [stepPassed, hn]
      exact .advances left (.inl ⟨hph, ‹_›⟩) hn
    · refine stepFailed_effect left ?_ fun hi => by simp [hi, phaseState] at hph
      rintro (⟨-, hx⟩ | ⟨hx, -⟩)
      · contradiction
      · simp [hx, phaseState] at hph
  · exact .quiet (.refl s)
  · exact .quiet (.refl s)

theorem execProgramAttemptDone_effect {cleared : PageBytes} {s t : State}
    (h : execProgramAttemptDone cleared s = .next t) : Effect s (.programAttemptDone cleared) t := by
  unfold execProgramAttemptDone at h
  repeat' split at h
  all_goals first | contradiction | obtain rfl := Host.Outcome.next.inj h
  · rename_i e st he hst hw hp
    have hph : st.phase = .program := of_decide_eq_true (Bool.and_eq_true_iff.mp hw).2
    have left : PageStep s e st (programAttempt (stepOld s st) (stepContent s st) cleared) :=
      ⟨he, hst, hp, .program cleared hph⟩
    split
    · rename_i hx
      cases hn : nextStep st with
      | some st' =>
        simp only [stepPassed, hn]
        exact .advances left (.inr ⟨hph, hx⟩) hn
      | none =>
        simp only [stepPassed, hn]
        exact .completes left hph hx hn
    · refine stepFailed_effect left ?_ fun hi => by simp [hi] at hph
      rintro (⟨hx, -⟩ | ⟨-, hx⟩)
      · simp [hph, phaseState] at hx
      · contradiction
  · exact .quiet (.refl s)
  · exact .quiet (.refl s)

theorem execInvalidationStep_effect {cleared : PageBytes} {s t : State} {i : Instr}
    (h : execInvalidationStep cleared s = .next t) : Effect s i t := by
  unfold execInvalidationStep at h
  repeat' split at h
  all_goals first | contradiction | obtain rfl := Host.Outcome.next.inj h
  · rename_i e st he hst hw hp
    have hph : st.phase = .invalidate := of_decide_eq_true (Bool.and_eq_true_iff.mp hw).2
    refine .fails ⟨he, hst, hp, .invalidate cleared hph⟩ ?_
    rintro (⟨hx, -⟩ | ⟨hx, -⟩) <;> simp [hph, phaseState] at hx
  · exact .quiet (.refl s)
  · exact .quiet (.refl s)

/-! ### Resets and mount -/

theorem execMountStart_effect {s t : State} {i : Instr} (h : execMountStart s = .next t) : Effect s i t := by
  obtain rfl := Host.Outcome.next.inj h
  split
  · rename_i hm
    exact .mountStarts hm.1 hm.2.2 rfl (.ofEq rfl)
  · exact .quiet (.refl s)

theorem endMount_mount (d : DeviceState) (s : State) : (endMount d s).mount = .idle := by
  simp only [endMount]
  split <;> rfl

theorem endMount_device (d : DeviceState) (s : State) : (endMount d s).device = d := by
  simp only [endMount]
  split <;> rfl

theorem endMount_tail (u : State) : MountTail u (endMount .ready u) := by
  have x := endMount_only .ready u
  exact ⟨x.dir rfl, x.engine rfl, x.queue rfl, x.array rfl, .inr ⟨endMount_mount _ _, endMount_device _ _⟩⟩

theorem setMount_tail (r : RecNo) (u : State) : MountTail u (setMount (.records r) u) :=
  ⟨rfl, rfl, rfl, rfl, .inl ⟨r, rfl, rfl⟩⟩

theorem mountOn_tail (r : RecNo) (u : State) : MountTail u (mountOn r u) := by
  unfold mountOn
  split
  · exact setMount_tail _ u
  · exact endMount_tail u

theorem execMountLayoutSelected_effect {s t : State} {i : Instr} (h : execMountLayoutSelected s = .next t) :
    Effect s i t := by
  obtain rfl := Host.Outcome.next.inj h
  split
  · rename_i hm
    split
    · exact .mountEmpty _ hm (.inl rfl)
    · exact .mountEmpty _ hm (.inr rfl)
    · rename_i v entries hs
      refine .mountLayout hm hs ?_
      dsimp only
      split
      · exact setMount_tail _ _
      · exact endMount_tail _
  · exact .quiet (.refl s)

theorem execMountSlotSet_effect {s t : State} {i : Instr} (h : execMountSlotSet s = .next t) : Effect s i t := by
  unfold execMountSlotSet at h
  repeat' split at h
  all_goals first | contradiction | obtain rfl := Host.Outcome.next.inj h
  · exact .mountSlot ‹_› ‹_› (mountOn_tail _ _)
  · exact .quiet (.refl s)
  · exact .mountDone ‹_› (endMount_tail s)
  · exact .quiet (.refl s)

/-- Everything that a command can do, said once. -/
theorem exec_effect {i : Instr} {s t : State} (h : exec i s = .next t) : Effect s i t := by
  cases i with
  | nop p tag body part => exact request_effect (serveNop_quiet p body) h
  | queryRecord p tag body part => exact request_effect (serveQueryRecord_quiet p body) h
  | readRecord p tag body part => exact request_effect (serveReadRecord_quiet p body) h
  | deviceStatus p tag body part => exact request_effect (serveDeviceStatus_quiet p body) h
  | openRecord p tag body part => exact request_effect (serveOpenRecord_quiet p body) h
  | stage p tag body part => exact request_effect (serveStage_quiet p body) h
  | append p tag body part => exact request_effect (serveAppend_quiet p body) h
  | commit p tag body part => exact request_effect (serveCommit_quiet p body) h
  | abandon p tag body part => exact request_effect (serveAbandon_quiet p body) h
  | fetchCommitResult p tag body part => exact request_effect (serveFetchCommitResult_quiet p body) h
  | lock p tag body part => exact request_effect (serveLock_quiet p body) h
  | unlock p tag body part => exact request_effect (serveUnlock_quiet p body) h
  | fetchLockReport p tag body part => exact request_effect (serveFetchLockReport_quiet p body) h
  | watch p tag body part => exact request_effect (serveWatch_quiet p body) h
  | unwatch p tag body part => exact request_effect (serveUnwatch_quiet p body) h
  | fetchNotice p tag body part => exact request_effect (serveFetchNotice_quiet p body) h
  | acknowledge p tag body part => exact request_effect (serveAcknowledge_quiet p body) h
  | setAttentionMask p tag body part => exact request_effect (serveSetAttentionMask_quiet p body) h
  | format p tag body part => exact request_effect (serveFormat_quiet p body) h
  | define p tag body part => exact request_effect (serveDefine_quiet p body) h
  | delete p tag body part => exact request_effect (serveDelete_quiet p body) h
  | setAccess p tag body part => exact request_effect (serveSetAccess_quiet p body) h
  | restart p tag body part => exact request_effect (serveRestart_quiet p body) h
  | fetch p sent part => exact frame_effect Quiet.refl h
  | poll p sent part => exact frame_effect Quiet.refl h
  | frameError p bytes extra part =>
    simp only [exec, execFrameError] at h
    split at h
    · exact frame_effect (fun s => (setPort_only _ _ s).quiet (by decide)) h
    · exact frame_effect Quiet.refl h
  | readTenureEnd pl => exact .quiet (execReadTenureEnd_quiet h)
  | openCopyLoad pl => exact .quiet (execOpenCopyLoad_quiet h)
  | engineStart => exact execEngineStart_effect h
  | eraseAttemptDone raised => exact execEraseAttemptDone_effect h
  | programAttemptDone cleared => exact execProgramAttemptDone_effect h
  | invalidationStep cleared => exact execInvalidationStep_effect h
  | timebasePeriodEnd =>
    obtain rfl := Host.Outcome.next.inj h
    exact .quiet (Only.quiet (h := { locks := true }) (.ofEq rfl) (by decide))
  | leaseExpiry r =>
    obtain rfl := Host.Outcome.next.inj h
    refine .quiet ?_
    repeat' split
    · exact Quiet.trans (Only.quiet (h := { reports := true, flags := true }) (.ofEq rfl) (by decide)) (handOn_quiet _ _)
    · exact .refl s
    · exact .refl s
  | waitExpiry r p =>
    obtain rfl := Host.Outcome.next.inj h
    refine .quiet ?_
    split
    · exact Only.quiet (h := { locks := true, reports := true, flags := true }) (.ofEq rfl) (by decide)
    · exact .refl s
  | supplyWarningRaised =>
    obtain rfl := Host.Outcome.next.inj h
    refine .quiet ?_
    have raised : ∀ u, Quiet u (forPorts raiseSupplyWarn u) := fun u =>
      (Only.forPorts (fun _ _ => setFlags_only _ _ _) u).quiet (by decide)
    repeat' split
    · exact .refl s
    · exact (setRc_only _ s).quiet (by decide)
    · exact (setRc_only _ s).quiet (by decide)
    · exact Quiet.trans ((setRc_only _ s).quiet (by decide)) (raised _)
  | supplyWarningRemoved =>
    obtain rfl := Host.Outcome.next.inj h
    refine .quiet ?_
    split
    · exact (setRc_only _ s).quiet (by decide)
    · exact .refl s
  | portClear p =>
    obtain rfl := Host.Outcome.next.inj h
    have low : Quiet s { s with clearLow := s.clearLow.set p true } :=
      Only.quiet (h := { clearLow := true }) (.ofEq rfl) (by decide)
    refine .quiet ?_
    simp only
    repeat' split
    · exact .refl s
    · exact low
    · exact low.trans (clearPort_quiet p _)
  | portClearRelease p csLow =>
    obtain rfl := Host.Outcome.next.inj h
    refine .quiet ?_
    split
    · exact Only.quiet (h := { clearLow := true, csLow := true, ports := true }) (.ofEq rfl) (by decide)
    · exact .refl s
  | powerOnReset cut => exact Host.Outcome.next.inj h ▸ .reset _ cut
  | supplyReset cut => exact Host.Outcome.next.inj h ▸ .reset _ cut
  | pinReset cut =>
    obtain rfl := Host.Outcome.next.inj h
    split
    · exact .quiet (.refl s)
    · exact .reset _ cut
  | restartReset cut =>
    obtain rfl := Host.Outcome.next.inj h
    split
    · exact .reset _ cut
    · exact .quiet (.refl s)
  | resetRelease straps csLow =>
    obtain rfl := Host.Outcome.next.inj h
    refine .quiet ?_
    have found : ∀ u, Quiet u (forPorts (fun p => findChipSelect p (csLow.get p)) u) := fun u =>
      Only.quiet (h := { csLow := true, ports := true }) (Only.forPorts (fun _ _ => .ofEq rfl) u) (by decide)
    split
    · exact Quiet.trans ((setRc_only _ s).quiet (by decide)) (found _)
    · exact .refl s
  | mountStart => exact execMountStart_effect h
  | mountLayoutSelected => exact execMountLayoutSelected_effect h
  | mountSlotSet => exact execMountSlotSet_effect h
  | sourceLetsGo src =>
    obtain rfl := Host.Outcome.next.inj h
    refine .quiet ?_
    split
    · exact (setRc_only _ s).quiet (by decide)
    · exact .refl s

end Sys2Proof.Machine

namespace Sys2Proof.Machine

open Sys2Proof

/-! ## What the engine's operations do to the directory and to its work -/

theorem leavePage_steady (pl : Plane) (page : Nat) (x : PageBytes) (s : State) : Steady s (leavePage pl page x s) :=
  (leavePage_only pl page x s).steady (by decide)

@[simp] theorem leavePage_engine (pl : Plane) (page : Nat) (x : PageBytes) (s : State) :
    (leavePage pl page x s).engine = s.engine := (leavePage_only pl page x s).engine rfl

@[simp] theorem leavePage_dir (pl : Plane) (page : Nat) (x : PageBytes) (s : State) :
    (leavePage pl page x s).dir = s.dir := (leavePage_only pl page x s).dir rfl

@[simp] theorem leavePage_array (pl : Plane) (page : Nat) (x : PageBytes) (s : State) :
    (leavePage pl page x s).array = writePage s.array pl page x := by
  rw [leavePage_eq]
  exact (endTenure_only pl _).array rfl

@[simp] theorem leavePage_slot (pl : Plane) (page : Nat) (x : PageBytes) (s : State) (r : RecNo) :
    slotOf (leavePage pl page x s) r = slotOf s r := by simp only [slotOf, leavePage_dir]

theorem askStep_steady (st : EngineStep) (n : Nat) (s : State) : Steady s (askStep st n s) :=
  (askStep_only st n s).steady (by decide)

@[simp] theorem askStep_array (st : EngineStep) (n : Nat) (s : State) : (askStep st n s).array = s.array :=
  (askStep_only st n s).array rfl

@[simp] theorem askStep_engine (st : EngineStep) (n : Nat) (s : State) :
    (askStep st n s).engine = { s.engine with state := phaseState st.phase, step := some st, attempt := n } :=
  (joinEngine_only _ _).engine rfl

theorem askStep_work (st : EngineStep) (n : Nat) (s : State) : SameWork s.engine (askStep st n s).engine := by
  rw [askStep_engine]
  exact ⟨rfl, rfl, rfl, rfl, rfl, rfl⟩

theorem failRecord_steady (e : Entry) (r : RecNo) (code : ResultCode) (s : State) :
    Steady s (failRecord e r code s) := (failRecord_only e r code s).steady (by decide)

theorem failLayout_steady (e : Entry) (code : ResultCode) (s : State) : Steady s (failLayout e code s) := by
  refine (undoEntry_quiet e s).steady.trans ?_
  exact (((handOutEnd_only _ _ _).mono (by decide)).trans
    ((engineIdle_only _).mono (k := { quietHomes with engine := true, array := true }) (by decide))).steady (by decide)

theorem failFault_steady (e : Entry) (s : State) : Steady s (failFault e s) := by
  unfold failFault
  split
  · exact failRecord_steady _ _ _ s
  · exact failLayout_steady _ _ s

@[simp] theorem failFault_engine (e : Entry) (s : State) : (failFault e s).engine = Engine.reset := by
  unfold failFault
  split <;> rfl

@[simp] theorem failFault_array (e : Entry) (s : State) : (failFault e s).array = s.array :=
  (failFault_only e s).array rfl

/-! ### The completion of a commit (R71) -/

/-- A commit of record r has completed onto copy c with generation g. -/
structure RecordDone (s : State) (r : RecNo) (c : Plane) (g : Gen) (t : State) : Prop where
  slot : slotOf t r = { slotOf s r with content := .valid c g }
  others : ∀ q, q ≠ r → slotOf t q = slotOf s q
  layout : t.dir.layout = s.dir.layout
  device : t.device = s.device
  mount : t.mount = s.mount
  queue : t.queue = s.queue
  array : t.array = s.array
  engine : t.engine = Engine.reset

theorem completeRecord_done (e : Entry) (r : RecNo) (c : Plane) (g : Gen) (s : State) :
    RecordDone s r c g (completeRecord e r c g s) := by
  have x : Only { arbiters := true, reads := true, results := true, sessions := true, flags := true, notices := true,
                  engine := true } (setSlot r { slotOf s r with content := .valid c g } s)
      (completeRecord e r c g s) := by
    refine Only.trans ?_ ((engineIdle_only _).mono (by decide))
    refine Only.trans ?_ ((postNotices_only _ _ _ _).mono (by decide))
    exact ((moveReads_only _ _ _).mono (by decide)).trans ((handOutEnd_only _ _ _).mono (by decide))
  have slots : ∀ q, slotOf (completeRecord e r c g s) q =
      slotOf (setSlot r { slotOf s r with content := .valid c g } s) q := fun q => by simp only [slotOf, x.dir rfl]
  exact ⟨by rw [slots, slotOf_setSlot_self], fun q hq => by rw [slots, slotOf_setSlot_ne _ _ _ _ hq.symm],
    by rw [x.dir rfl]; rfl, x.device rfl, x.mount rfl, x.queue rfl, x.array rfl, rfl⟩

/-! ### The completion of a layout operation (R137) -/

/-- What a layout operation makes of a slot: undefined; newly defined and EMPTY; or defined as before, at the same
place and with the same content. -/
inductive LayoutSlot (op : LayoutOp) (q : RecNo) (x y : Slot) : Prop
  | undefined (h : y = Slot.undefined)
  | defined (e : LayoutEntry) (hop : op = .define q e) (he : y.entry = some e) (hc : y.content = .empty)
  | kept (e e' : LayoutEntry) (hx : x.entry = some e) (hy : y.entry = some e') (hl : e'.length = e.length)
      (hb : e'.basePage = e.basePage) (hc : y.content = x.content)

/-- A layout operation has completed onto layout copy c with layout generation g. -/
structure LayoutDone (s : State) (op : LayoutOp) (c : Plane) (g : Gen) (t : State) : Prop where
  slot : ∀ q, LayoutSlot op q (slotOf s q) (slotOf t q)
  entries : t.dir.slots.map Slot.entry = layoutAfter s op
  layout : t.dir.layout = some ⟨c, g⟩
  device : t.device = if op = .format then .ready else s.device
  mount : t.mount = s.mount
  queue : t.queue = s.queue
  array : t.array = s.array
  engine : t.engine = Engine.reset

/-- The slot effect of a layout operation alone. -/
def layoutChanged (op : LayoutOp) (s : State) : State :=
  match op with
  | .format => setDevice .ready (setSlots (Table.fill 128 Slot.undefined) s)
  | .define r e => setSlot r { entry := some e, content := .empty, watch := PortSet.empty, deletePending := false } s
  | .delete r => setSlot r Slot.undefined s
  | .setAccess r rs ws g =>
    setSlot r { slotOf s r with
      entry := (slotOf s r).entry.map fun e => { e with readSet := rs, writeSet := ws, guarded := g } } s

theorem setAccessEffects_quiet (r : RecNo) (rs ws : PortSet) (s : State) : Quiet s (setAccessEffects r rs ws s) := by
  refine Quiet.trans ?_ ((applyWriteSet_only r ws _).quiet (by decide))
  refine forPorts_induct (Quiet s) _ (fun p u hu => ?_) s (.refl s)
  split
  · exact hu.trans (stopWatching_quiet r p u)
  · exact hu

/-- Its other effects leave the directory alone (R98, R119, R137). -/
theorem applyLayoutOp_quiet (op : LayoutOp) (s : State) : Quiet (layoutChanged op s) (applyLayoutOp op s) := by
  cases op with
  | format | define => exact .refl _
  | delete r =>
    have x : Only { arbiters := true, reads := true, ports := true, notices := true, flags := true }
        (setSlot r Slot.undefined s) (applyLayoutOp (.delete r) s) :=
      Only.forPorts (fun p u => ((refuseDeleted_only r p u).mono (by decide)).trans
        ((dropNotice_only r p _).mono (by decide))) _
    exact x.quiet (by decide)
  | setAccess r rs ws g => exact setAccessEffects_quiet r rs ws _

theorem layoutChanged_entries (op : LayoutOp) (s : State) (q : RecNo) :
    (slotOf (layoutChanged op s) q).entry = (layoutAfter s op).get q := by
  cases op with
  | format => simp [layoutChanged, layoutAfter, slotOf, Slot.undefined]
  | define r e =>
    simp only [layoutChanged, layoutAfter, slotOf_setSlot, Table.get_set, Table.get_map]
    split <;> rfl
  | delete r =>
    simp only [layoutChanged, layoutAfter, slotOf_setSlot, Table.get_set, Table.get_map]
    split <;> rfl
  | setAccess r rs ws g =>
    simp only [layoutChanged, layoutAfter, slotOf_setSlot, Table.get_set, Table.get_map]
    split <;> rfl

/-- A slot that keeps its place and content. -/
theorem layoutSlot_refl (op : LayoutOp) (q : RecNo) {x : Slot} (hu : x.entry = none → x = Slot.undefined) :
    LayoutSlot op q x x := by
  cases h : x.entry with
  | none => exact .undefined (hu h)
  | some e => exact .kept e e h h rfl rfl rfl

theorem layoutChanged_slot (op : LayoutOp) (s : State) (q : RecNo)
    (hu : (slotOf s q).entry = none → slotOf s q = Slot.undefined) :
    LayoutSlot op q (slotOf s q) (slotOf (layoutChanged op s) q) := by
  cases op with
  | format => exact .undefined (by simp [layoutChanged, slotOf])
  | define r e =>
    simp only [layoutChanged, slotOf_setSlot]
    split
    · subst_vars
      exact .defined e rfl rfl rfl
    · exact layoutSlot_refl _ _ hu
  | delete r =>
    simp only [layoutChanged, slotOf_setSlot]
    split
    · exact .undefined rfl
    · exact layoutSlot_refl _ _ hu
  | setAccess r rs ws g =>
    simp only [layoutChanged, slotOf_setSlot]
    split
    · subst_vars
      cases h : (slotOf s r).entry with
      | none => exact .undefined (by rw [hu h]; rfl)
      | some e => exact .kept e _ h rfl rfl rfl rfl
    · exact layoutSlot_refl _ _ hu

/-- A layout slot seen in a directory that agrees. -/
theorem LayoutSlot.congr {op : LayoutOp} {q : RecNo} {x : Slot} {u t : State} (h : SameDir u t)
    (y : LayoutSlot op q x (slotOf u q)) : LayoutSlot op q x (slotOf t q) := by
  cases y with
  | undefined hy => exact .undefined (h.undef q hy)
  | defined e hop he hc => exact .defined e hop (by rw [h.entry, he]) (by rw [h.content, hc])
  | kept e e' hx hy hl hb hc => exact .kept e e' hx (by rw [h.entry, hy]) hl hb (by rw [h.content, hc])

theorem completeLayout_done (e : Entry) (op : LayoutOp) (c : Plane) (g : Gen) (s : State)
    (hu : ∀ q, (slotOf s q).entry = none → slotOf s q = Slot.undefined) :
    LayoutDone s op c g (completeLayout e op c g s) := by
  have quiet := applyLayoutOp_quiet op (setLayout (some ⟨c, g⟩) s)
  have only := applyLayoutOp_only op (setLayout (some ⟨c, g⟩) s)
  have x : Only { results := true, sessions := true, flags := true, engine := true }
      (applyLayoutOp op (setLayout (some ⟨c, g⟩) s)) (completeLayout e op c g s) := by
    refine Only.trans ?_ ((engineIdle_only _).mono (by decide))
    refine Only.trans ?_ (Only.forPorts (fun p s => (Only.ofEq (h := { flags := true }) rfl).mono (by decide)) _)
    exact (handOutEnd_only _ _ _).mono (by decide)
  have same : SameDir (layoutChanged op (setLayout (some ⟨c, g⟩) s)) (completeLayout e op c g s) :=
    quiet.steady.dir.trans (.of_eq (x.dir rfl))
  refine ⟨fun q => ?_, ?_, ?_, ?_, ?_, ?_, ?_, rfl⟩
  · exact (layoutChanged_slot op (setLayout (some ⟨c, g⟩) s) q (hu q)).congr same
  · refine Table.ext_get fun q => ?_
    rw [Table.get_map]
    exact (same.entry q).trans (layoutChanged_entries op _ q)
  · rw [same.layout]
    cases op <;> rfl
  · rw [x.device rfl, quiet.steady.device]
    cases op <;> rfl
  · rw [x.mount rfl, only.mount rfl]
    rfl
  · rw [x.queue rfl, only.queue rfl]
    rfl
  · rw [x.array rfl, only.array rfl]
    rfl

/-! ### The start of an entry (R66, R67, R134) -/

/-- The engine at the first step of a record entry (R66 to R68). -/
def recordEngine (e : Entry) (x : Slot) (le : LayoutEntry) (data : Table 248 Byte) : Engine :=
  { state := .erase, entry := some e, detached := false, target := some (targetCopy x.content.current)
    newGen := successor x.content.generation, step := some ⟨.erase, 1, extentPages le.length⟩, attempt := 1
    buffer := .data data, basePage := le.basePage, length := le.length }

/-- The engine at the first step of a layout entry (R134 to R136). -/
def layoutEngine (e : Entry) (op : LayoutOp) (s : State) : Engine :=
  { state := phaseState (firstLayoutStep op).phase, entry := some e, detached := false
    target := some (layoutTarget s op).1, newGen := (layoutTarget s op).2, step := some (firstLayoutStep op), attempt := 1
    buffer := .image (Table.ofList 800 Config.blankByte (layoutImage (layoutTarget s op).2 (layoutAfter s op).cells))
    basePage := (layoutPlacement op).1, length := (layoutPlacement op).2 }

/-- The engine after the start of an entry: IDLE again, or at the entry's first step. -/
inductive Started (s : State) (e : Entry) : Engine → Prop
  | failed : Started s e Engine.reset
  | record {r cond base le data} (hw : e.work = .record r cond base) (he : (slotOf s r).entry = some le) :
      Started s e (recordEngine e (slotOf s r) le data)
  | layout {op} (hw : e.work = .layout op) (hc : layoutStartCheck s op = none) : Started s e (layoutEngine e op s)

theorem startEntry_engine (e : Entry) (s : State) : Started s e (startEntry e s).engine := by
  obtain ⟨p, w⟩ := e
  cases w with
  | record r cond base =>
    simp only [startEntry, startRecord]
    split
    · exact .failed
    · exact .failed
    · rw [askStep_engine]
      exact .record rfl ‹_›
  | layout op =>
    simp only [startEntry, startLayout]
    split
    · exact .failed
    · rw [askStep_engine]
      exact .layout rfl ‹_›

theorem setEngine_steady (x : Engine) (s : State) : Steady s (setEngine x s) := (setEngine_only x s).steady (by decide)

theorem startEntry_steady (e : Entry) (s : State) : Steady s (startEntry e s) := by
  obtain ⟨p, w⟩ := e
  have begun : ∀ x y, Steady s (setEngine x (setSession p y s)) := fun x y =>
    (setSession_quiet p y s).steady.trans (setEngine_steady x _)
  cases w with
  | record r cond base =>
    simp only [startEntry, startRecord]
    have taken : ∀ u, Steady u (takeStaged p r u) := fun u => (setSession_quiet _ _ u).steady.trans (setEngine_steady _ _)
    split
    · exact ((begun _ _).trans (taken _)).trans (failRecord_steady _ _ _ _)
    · exact ((begun _ _).trans (taken _)).trans (failRecord_steady _ _ _ _)
    · exact (((begun _ _).trans (taken _)).trans (setEngine_steady _ _)).trans (askStep_steady _ _ _)
  | layout op =>
    simp only [startEntry, startLayout]
    split
    · exact ((begun _ _).trans (setEngine_steady _ _)).trans (failLayout_steady _ _ _)
    · exact (((begun _ _).trans (setEngine_steady _ _)).trans (setEngine_steady _ _)).trans (askStep_steady _ _ _)

@[simp] theorem startEntry_array (e : Entry) (s : State) : (startEntry e s).array = s.array :=
  (startEntry_only e s).array rfl

end Sys2Proof.Machine

namespace Sys2Proof.Machine

open Sys2Proof

/-! ## Stored images: what is written reads back as VALID, and what a VALID image holds (R25 to R30) -/

theorem successor_ne_zero (g : Gen) : successor g ≠ 0 := by
  unfold successor
  split
  · decide
  · intro h
    bv_omega

/-! ### Record images -/

theorem classifyRecord_valid {r : RecNo} {n : Nat} {pl : Plane} {image : List Byte} {g : Gen}
    (h : classifyRecord r n pl image = .valid g) :
    byteAt image 0 = 0x3C ∧ byteAt image 1 = recByte r ∧ g ≠ 0 := by
  simp only [classifyRecord] at h
  split at h
  · contradiction
  · split at h
    · rename_i hv
      obtain ⟨h0, h1, -, -, hg, -⟩ := hv
      obtain rfl := RecordClass.valid.inj h
      exact ⟨h0, h1, hg⟩
    · contradiction

/-- What the engine programs for a record is a VALID image of it that carries the generation (R25 to R27, R29). -/
theorem classifyRecord_recordImage (r : RecNo) (n : Nat) (c : Plane) (g : Gen) (data : List Byte) (hn : n ≤ data.length)
    (hg : g ≠ 0) : classifyRecord r n c (recordImage r n c g data) = .valid g := by
  obtain ⟨body, hb⟩ : ∃ body, body = data.take n := ⟨_, rfl⟩
  have hl : body.length = n := by rw [hb, List.length_take]; omega
  obtain ⟨code, hc⟩ : ∃ code, code = crc16 (recordHeader r n c g ++ body) := ⟨_, rfl⟩
  obtain ⟨pad, hp⟩ : ∃ pad, recordImage r n c g data = recordHeader r n c g ++ genBytes code ++ body ++ pad :=
    ⟨_, by rw [recordImage, ← hb, ← hc]; rfl⟩
  have hd : imageData (recordImage r n c g data) 0 n = body := by
    rw [hp, imageData]
    simp [recordHeader, genBytes, ← hl]
  have hi : imageGeneration (recordImage r n c g data) = g := by
    rw [hp]
    exact genOfBytes_genBytes g
  have h6 : genOfBytes (byteAt (recordImage r n c g data) 6) (byteAt (recordImage r n c g data) 7) = code := by
    rw [hp]
    exact genOfBytes_genBytes code
  have ht : (recordImage r n c g data).take 6 = recordHeader r n c g := by
    rw [hp]
    rfl
  simp only [classifyRecord, hi, h6, hd, ht]
  rw [if_neg, if_pos]
  · rw [hp]
    exact ⟨rfl, rfl, rfl, rfl, hg, hc⟩
  · rw [hp]
    simp [recordHeader]

theorem recordImage_length (r : RecNo) (n : Nat) (c : Plane) (g : Gen) (data : List Byte) :
    (recordImage r n c g data).length = 32 * extentPages n := by
  have hl : (data.take n).length ≤ n := List.length_take_le n data
  simp only [recordImage, padBlank, List.length_append, List.length_replicate, recordHeader, genBytes, List.length_cons,
    List.length_nil, extentPages]
  omega

/-- Of two VALID copies the newer is taken (R149). -/
theorem selectRecord_both (g0 g1 : Gen) :
    selectRecord (.valid g0) (.valid g1) = .valid .p0 g0 ∨ selectRecord (.valid g0) (.valid g1) = .valid .p1 g1 := by
  delta selectRecord
  dsimp only
  generalize newerCopy g0 g1 = pl
  cases pl
  · exact .inl rfl
  · exact .inr rfl

/-- The copy that mount selects is VALID with the selected generation (R149). -/
theorem selectRecord_valid (f : Plane → RecordClass) {c : Plane} {g : Gen}
    (h : selectRecord (f .p0) (f .p1) = .valid c g) : f c = .valid g := by
  cases h0 : f .p0 with
  | valid g0 =>
    cases h1 : f .p1 with
    | valid g1 =>
      rw [h0, h1] at h
      rcases selectRecord_both g0 g1 with hs | hs <;> obtain ⟨rfl, rfl⟩ := Content.valid.inj (hs.symm.trans h)
      exacts [h0, h1]
    | noImage | invalid =>
      rw [h0, h1] at h
      obtain ⟨rfl, rfl⟩ := Content.valid.inj h
      exact h0
  | noImage | invalid =>
    cases h1 : f .p1 with
    | valid g1 =>
      rw [h0, h1] at h
      obtain ⟨rfl, rfl⟩ := Content.valid.inj h
      exact h1
    | noImage | invalid =>
      rw [h0, h1] at h
      cases h

/-! ### Layout entries -/

theorem placementOk_iff (n b : Nat) :
    placementOk n b = true ↔ 1 ≤ n ∧ n ≤ 248 ∧ 25 ≤ b ∧ b + extentPages n ≤ 2048 := by
  simp only [placementOk, extentInArray, Bool.and_eq_true, decide_eq_true_eq, and_assoc]
  rfl

theorem parseLayoutEntry_placed {b : List Byte} {e : LayoutEntry} (h : parseLayoutEntry b = some (some e)) :
    placementOk e.length e.basePage = true := by
  unfold parseLayoutEntry at h
  repeat' split at h
  all_goals simp only [Option.some.injEq, reduceCtorEq] at h
  rename_i hp _ _ _ _ _ _
  subst h
  exact hp.2.2

theorem parseLayoutEntry_bytes (e : LayoutEntry) (h : placementOk e.length e.basePage = true) :
    parseLayoutEntry (layoutEntryBytes (some e)) = some (some e) := by
  obtain ⟨n, b, rs, ws, g⟩ := e
  obtain ⟨-, hn, -, hb⟩ := (placementOk_iff n b).mp h
  have len : (natByte n).toNat = n := by simp only [natByte, BitVec.toNat_ofNat]; omega
  have page : pageOfBytes (BitVec.ofNat 8 b) (BitVec.ofNat 8 (b / 256)) = b := pageOfBytes_ofNat b (by omega)
  have flags : ∀ g : Bool, (1 ||| boolByte g <<< 1 : Byte) ≠ 0 ∧ (1 ||| boolByte g <<< 1 : Byte).toNat < 4 ∧
      (1 ||| boolByte g <<< 1 : Byte).getLsbD 0 = true ∧ (1 ||| boolByte g <<< 1 : Byte).getLsbD 1 = g := by decide
  obtain ⟨f0, f4, f1, f2⟩ := flags g
  simp only [layoutEntryBytes, genBytes_ofNat, List.cons_append, List.nil_append, parseLayoutEntry]
  rw [if_neg (by simp only [List.cons.injEq]; exact fun hz => f0 hz.1), if_pos ⟨f4, f1, by rw [len, page]; exact h⟩]
  simp only [portSetOfByte_portSetByte, len, page, f2]

theorem layoutEntryBytes_length (x : Option LayoutEntry) : (layoutEntryBytes x).length = 6 := by cases x <;> rfl

theorem layoutBody_length (es : List (Option LayoutEntry)) : (es.flatMap layoutEntryBytes).length = 6 * es.length := by
  induction es with
  | nil => rfl
  | cons x es ih =>
    rw [List.flatMap_cons, List.length_append, ih, layoutEntryBytes_length, List.length_cons]
    omega

/-- The bytes of entries with legal places spell the entries (R28, R30). -/
theorem parseLayoutEntries_bytes (es : List (Option LayoutEntry))
    (h : ∀ e, some e ∈ es → placementOk e.length e.basePage = true) :
    parseLayoutEntries es.length (es.flatMap layoutEntryBytes) = some es := by
  induction es with
  | nil => rfl
  | cons x es ih =>
    have hx : parseLayoutEntry (layoutEntryBytes x) = some x := by
      cases x with
      | none => rfl
      | some e => exact parseLayoutEntry_bytes e (h e List.mem_cons_self)
    rw [List.flatMap_cons, List.length_cons, parseLayoutEntries, List.take_left' (layoutEntryBytes_length x),
      List.drop_left' (layoutEntryBytes_length x), hx, ih fun e he => h e (List.mem_cons_of_mem _ he)]

theorem parseLayoutEntries_placed {n : Nat} {bytes : List Byte} {es : List (Option LayoutEntry)}
    (h : parseLayoutEntries n bytes = some es) :
    es.length = n ∧ ∀ e, some e ∈ es → placementOk e.length e.basePage = true := by
  induction n generalizing bytes es with
  | zero =>
    obtain rfl := Option.some.inj h
    exact ⟨rfl, fun e he => absurd he List.not_mem_nil⟩
  | succ n ih =>
    simp only [parseLayoutEntries] at h
    split at h
    · rename_i x xs hx hxs
      obtain rfl := Option.some.inj h
      obtain ⟨hl, hp⟩ := ih hxs
      refine ⟨by rw [List.length_cons, hl], fun e he => ?_⟩
      rcases List.mem_cons.mp he with rfl | he
      · exact parseLayoutEntry_placed hx
      · exact hp e he
    · contradiction

/-! ### Extents that do not overlap -/

theorem entriesOverlap_comm (x y : Option LayoutEntry) : entriesOverlap x y = entriesOverlap y x := by
  cases x <;> cases y <;> first | rfl | exact Bool.and_comm _ _

theorem noOverlap_iff (es : List (Option LayoutEntry)) :
    noOverlap es = true ↔ es.Pairwise fun x y => entriesOverlap x y = false := by
  induction es with
  | nil => simp [noOverlap]
  | cons x es ih => simp [noOverlap, ih]

/-- No two of a table's extents overlap. -/
theorem noOverlap_cells_iff (t : Table 128 (Option LayoutEntry)) :
    noOverlap t.cells = true ↔ ∀ r r', r ≠ r' → entriesOverlap (t.get r) (t.get r') = false := by
  rw [noOverlap_iff, List.pairwise_iff_getElem]
  constructor
  · intro h r r' hr
    have hs := t.size
    rcases Nat.lt_or_gt_of_ne (Fin.val_ne_of_ne hr) with hlt | hlt
    · exact h r.val r'.val (by omega) (by omega) hlt
    · rw [entriesOverlap_comm]
      exact h r'.val r.val (by omega) (by omega) hlt
  · intro h i j hi hj hij
    exact h ⟨i, by rwa [t.size] at hi⟩ ⟨j, by rwa [t.size] at hj⟩ (by simp only [ne_eq, Fin.mk.injEq]; omega)

/-! ### Layout images -/

/-- A VALID layout image has a generation from 1, legal places and no overlap (R28, R30). -/
theorem classifyLayout_valid {image : List Byte} {g : Gen} {t : Table 128 (Option LayoutEntry)}
    (h : classifyLayout image = .valid g t) :
    g ≠ 0 ∧ (∀ r e, t.get r = some e → placementOk e.length e.basePage = true) ∧
      ∀ r r', r ≠ r' → entriesOverlap (t.get r) (t.get r') = false := by
  simp only [classifyLayout] at h
  repeat' split at h
  all_goals try contradiction
  rename_i hv _ es hes hno
  obtain ⟨-, -, hg, -⟩ := hv
  obtain ⟨rfl, rfl⟩ := LayoutClass.valid.inj h
  obtain ⟨hl, hp⟩ := parseLayoutEntries_placed hes
  have cells : (Table.ofList 128 none es).cells = es := List.take_left' hl
  refine ⟨hg, fun r e he => hp e ?_, (noOverlap_cells_iff _).mp (by rw [cells]; exact hno)⟩
  rw [← cells]
  exact (Table.mem_cells_iff _ _).mpr ⟨r, he⟩

/-- What the engine programs for a layout is a VALID image of its generation and entries (R28, R30). -/
theorem classifyLayout_layoutImage (g : Gen) (t : Table 128 (Option LayoutEntry)) (hg : g ≠ 0)
    (hp : ∀ r e, t.get r = some e → placementOk e.length e.basePage = true)
    (ho : ∀ r r', r ≠ r' → entriesOverlap (t.get r) (t.get r') = false) :
    classifyLayout (layoutImage g t.cells) = .valid g t := by
  obtain ⟨body, hb⟩ : ∃ body, body = t.cells.flatMap layoutEntryBytes := ⟨_, rfl⟩
  have hl : body.length = 768 := by rw [hb, layoutBody_length, t.size]
  obtain ⟨code, hc⟩ : ∃ code, code = crc16 (layoutHeader g ++ body) := ⟨_, rfl⟩
  have hi : layoutImage g t.cells = layoutHeader g ++ genBytes code ++ List.replicate 26 0xFF ++ body := by
    rw [layoutImage, ← hb, ← hc]
    rfl
  have h6 : genOfBytes (byteAt (layoutImage g t.cells) 4) (byteAt (layoutImage g t.cells) 5) = code := by
    rw [hi]
    exact genOfBytes_genBytes code
  have h2 : genOfBytes (byteAt (layoutImage g t.cells) 2) (byteAt (layoutImage g t.cells) 3) = g := by
    rw [hi]
    exact genOfBytes_genBytes g
  have hd : ((layoutImage g t.cells).drop 32).take 768 = body := by
    rw [hi, List.drop_left' (by rfl), ← hl, List.take_length]
  have hk : (layoutImage g t.cells).take 4 = layoutHeader g := by
    rw [hi]
    rfl
  have parsed : parseLayoutEntries 128 body = some t.cells := by
    have := parseLayoutEntries_bytes t.cells fun e he => by
      obtain ⟨r, hr⟩ := (Table.mem_cells_iff t (some e)).mp he
      exact hp r e hr
    rwa [t.size, ← hb] at this
  have whole : Table.ofList 128 none t.cells = t := Table.cells_injective (List.take_left' t.size)
  simp only [classifyLayout, h2, h6, hd, hk]
  rw [if_neg, if_pos]
  · simp only [parsed, (noOverlap_cells_iff t).mpr ho, whole, if_true]
  · rw [hi]
    exact ⟨rfl, rfl, hg, hc⟩
  · rw [hi]
    simp [layoutHeader]

theorem layoutImage_length (g : Gen) (t : Table 128 (Option LayoutEntry)) : (layoutImage g t.cells).length = 800 := by
  simp only [layoutImage, padBlank, List.length_append, List.length_replicate, layoutHeader, genBytes, List.length_cons,
    List.length_nil, layoutBody_length, t.size]

/-- Of two VALID layout copies the newer is taken (R147). -/
theorem selectLayout_both (g0 g1 : Gen) (t0 t1 : Table 128 (Option LayoutEntry)) :
    selectLayout (.valid g0 t0) (.valid g1 t1) = .ready ⟨.p0, g0⟩ t0 ∨
      selectLayout (.valid g0 t0) (.valid g1 t1) = .ready ⟨.p1, g1⟩ t1 := by
  delta selectLayout
  dsimp only
  generalize newerCopy g0 g1 = pl
  cases pl
  · exact .inl rfl
  · exact .inr rfl

/-- The layout copy that mount selects is VALID with the selected generation and entries (R147). -/
theorem selectLayout_ready (f : Plane → LayoutClass) {v : LayoutVersion} {t : Table 128 (Option LayoutEntry)}
    (h : selectLayout (f .p0) (f .p1) = .ready v t) : f v.current = .valid v.generation t := by
  cases h0 : f .p0 with
  | valid g0 t0 =>
    cases h1 : f .p1 with
    | valid g1 t1 =>
      rw [h0, h1] at h
      rcases selectLayout_both g0 g1 t0 t1 with hs | hs <;>
        obtain ⟨rfl, rfl⟩ := LayoutChoice.ready.inj (hs.symm.trans h)
      exacts [h0, h1]
    | noImage | invalid =>
      rw [h0, h1] at h
      obtain ⟨rfl, rfl⟩ := LayoutChoice.ready.inj h
      exact h0
  | noImage | invalid =>
    cases h1 : f .p1 with
    | valid g1 t1 =>
      rw [h0, h1] at h
      obtain ⟨rfl, rfl⟩ := LayoutChoice.ready.inj h
      exact h1
    | noImage | invalid =>
      rw [h0, h1] at h
      cases h

end Sys2Proof.Machine

namespace Sys2Proof.Machine

open Sys2Proof

/-! ## The directory invariant, part by part -/

namespace DirectoryInv

variable {s : State} (h : DirectoryInv s)

include h

theorem generation {r : RecNo} {c : Plane} {g : Gen} (hc : (slotOf s r).content = .valid c g) : g ≠ 0 :=
  (h.1.1 r).1 c g hc

theorem undefined {r : RecNo} (he : (slotOf s r).entry = none) : slotOf s r = Slot.undefined := (h.1.1 r).2.1 he

theorem place {r : RecNo} {e : LayoutEntry} (he : (slotOf s r).entry = some e) :
    placementOk e.length e.basePage = true := (h.1.1 r).2.2 e he

theorem apart {r r' : RecNo} (hr : r ≠ r') : entriesOverlap (slotOf s r).entry (slotOf s r').entry = false := h.1.2 r r' hr

/-- In MOUNTING nothing is queued or in the engine (R143). -/
theorem no_work (hd : s.device = .mounting) : s.engine.entry = none ∧ s.queue = [] := by
  obtain ⟨-, ⟨-, hw, -⟩, -⟩ := h
  exact hw hd

theorem mounting_of_mount (hm : s.mount ≠ .idle) : s.device = .mounting := by
  obtain ⟨-, ⟨hm', -⟩, -⟩ := h
  exact hm' hm

/-- While the engine has an entry, the device is out of mount. -/
theorem working {e : Entry} (he : s.engine.entry = some e) : s.device ≠ .mounting ∧ s.mount = .idle := by
  have hd : s.device ≠ .mounting := fun hd => by simp [(h.no_work hd).1] at he
  exact ⟨hd, by_contra fun hm => hd (h.mounting_of_mount hm)⟩

/-- Before a layout copy is selected there is no layout and no defined slot (R128, R145). -/
theorem blank (hd : s.device = .mounting ∧ (s.mount = .idle ∨ s.mount = .layout) ∨ s.device = .unformatted ∨
    s.device = .layoutDamaged) : s.dir.layout = none ∧ NoneDefined s := by
  obtain ⟨-, ⟨-, -, hb, -⟩, -⟩ := h
  exact hb hd

theorem layout_of (hd : s.device = .ready ∨ ∃ r, s.mount = .records r) : s.dir.layout ≠ none := by
  obtain ⟨-, ⟨-, -, -, hl, -⟩, -⟩ := h
  exact hl hd

theorem layoutGeneration {v : LayoutVersion} (hv : s.dir.layout = some v) : v.generation ≠ 0 := by
  obtain ⟨-, ⟨-, -, -, -, hg⟩, -⟩ := h
  exact hg v hv

/-- A record entry works on its slot's extent, on the copy that is not current (R12, R67). -/
theorem recordLink {p : Port} {r : RecNo} {c : Condition} {g : Gen} (he : s.engine.entry = some ⟨p, .record r c g⟩) :
    ∃ e, (slotOf s r).entry = some e ∧ s.engine.basePage = e.basePage ∧ s.engine.length = e.length ∧
      s.engine.target = some (targetCopy (slotOf s r).content.current) ∧
      s.engine.newGen = successor (slotOf s r).content.generation := by
  obtain ⟨-, -, hr, -⟩ := h
  exact hr p r c g he

theorem layoutLink {p : Port} {op : LayoutOp} (he : s.engine.entry = some ⟨p, .layout op⟩) :
    s.engine.target = some (layoutTarget s op).1 ∧ s.engine.newGen = (layoutTarget s op).2 := by
  obtain ⟨-, -, -, hl, -⟩ := h
  exact hl p op he

/-- While a FORMAT is in the engine no slot is defined (R134). -/
theorem formatEmpty {p : Port} (he : s.engine.entry = some ⟨p, .layout .format⟩) : NoneDefined s := by
  obtain ⟨-, -, -, -, hf, -⟩ := h
  exact hf p he

theorem ready {e : Entry} (he : s.engine.entry = some e) (hw : e.work ≠ .layout .format) : s.device = .ready := by
  obtain ⟨-, -, -, -, -, hr, -⟩ := h
  exact hr e he hw

/-- A DEFINE in the engine has a legal place that no defined record shares (R134). -/
theorem defineLink {p : Port} {r : RecNo} {e : LayoutEntry} (he : s.engine.entry = some ⟨p, .layout (.define r e)⟩) :
    (slotOf s r).entry = none ∧ placementOk e.length e.basePage = true ∧ overlapsDefined s e = false ∧
      s.engine.basePage = e.basePage ∧ s.engine.length = e.length := by
  obtain ⟨-, -, -, -, -, -, -, hd, -⟩ := h
  exact hd p r e he

theorem queuePlaced {e : Entry} (he : e ∈ s.queue) : Placed e := by
  obtain ⟨-, -, -, -, -, -, -, -, hq⟩ := h
  intro r le hw
  refine hq e.port r le ?_
  rw [← hw]
  exact he

end DirectoryInv

/-! ## Building the invariant of a next state -/

/-- The extents of the slots are the same, and no content has generation 0. -/
theorem DirectoryInv.directoryOk {s t : State} (h : DirectoryInv s)
    (he : ∀ r, (slotOf t r).entry = (slotOf s r).entry)
    (hu : ∀ r, slotOf s r = Slot.undefined → slotOf t r = Slot.undefined)
    (hg : ∀ r c g, (slotOf t r).content = .valid c g → g ≠ 0) : DirectoryOk t :=
  ⟨fun r => ⟨hg r, fun hn => hu r (h.undefined ((he r).symm.trans hn)), fun _ hs => h.place ((he r).symm.trans hs)⟩,
    fun r r' hr => by rw [he, he]; exact h.apart hr⟩

theorem DirectoryInv.directoryOk_of_sameDir {s t : State} (h : DirectoryInv s) (hd : SameDir s t) : DirectoryOk t :=
  h.directoryOk hd.entry hd.undef fun r _ _ hc => h.generation ((hd.content r).symm.trans hc)

theorem noneDefined_of_sameDir {s t : State} (hd : SameDir s t) (h : NoneDefined s) : NoneDefined t :=
  fun r => (hd.entry r).trans (h r)

/-- The device's part stays where an entry is in the engine or in the queue only if one was. -/
theorem DirectoryInv.deviceOk_of_steady {s t : State} (h : DirectoryInv s) (hs : Steady s t)
    (he : s.engine.entry = none → t.engine.entry = none) : DeviceOk t := by
  have hq : s.device = .mounting → t.queue = [] := fun hd => by
    refine List.eq_nil_iff_forall_not_mem.mpr fun e hm => ?_
    rcases hs.queue e hm with hm | ⟨hn, -⟩
    · rw [(h.no_work hd).2] at hm
      exact absurd hm List.not_mem_nil
    · exact hn hd
  refine ⟨?_, ?_, ?_, ?_, ?_⟩ <;> simp only [hs.device, hs.mount, hs.dir.layout]
  · exact h.mounting_of_mount
  · exact fun hd => ⟨he (h.no_work hd).1, hq hd⟩
  · exact fun hd => ⟨(h.blank hd).1, noneDefined_of_sameDir hs.dir (h.blank hd).2⟩
  · exact h.layout_of
  · exact fun v => h.layoutGeneration

/-- In READY, with a layout (R128, R143). -/
theorem deviceOk_ready {t : State} {v : LayoutVersion} (hd : t.device = .ready) (hm : t.mount = .idle)
    (hl : t.dir.layout = some v) (hg : v.generation ≠ 0) : DeviceOk t := by
  simpa [DeviceOk, hd, hm, hl] using hg

theorem linkOk_idle {t : State} (he : t.engine.entry = none) (hq : ∀ e ∈ t.queue, Placed e) : LinkOk t := by
  simp only [LinkOk, he, reduceCtorEq, false_implies, implies_true, true_and, exists_false, or_false]
  exact fun p r e hm => hq _ hm r e rfl

theorem DirectoryInv.queuePlaced_of_steady {s t : State} (h : DirectoryInv s) (hs : Steady s t) :
    ∀ e ∈ t.queue, Placed e := fun e he => by
  rcases hs.queue e he with hm | ⟨-, hp⟩
  · exact h.queuePlaced hm
  · exact hp

theorem layoutTarget_congr {s t : State} (hl : t.dir.layout = s.dir.layout) (op : LayoutOp) :
    layoutTarget t op = layoutTarget s op := by
  cases op <;> simp only [layoutTarget, layoutCurrent, Machine.layoutGeneration, hl]

theorem overlapsDefined_congr {s t : State} (hd : ∀ r, (slotOf t r).entry = (slotOf s r).entry) (e : LayoutEntry) :
    overlapsDefined t e = overlapsDefined s e := by
  rw [Bool.eq_iff_iff, overlapsDefined_iff, overlapsDefined_iff]
  simp only [hd]

/-- The engine's part stays while it goes on with its entry. -/
theorem DirectoryInv.linkOk_of_work {s t : State} (h : DirectoryInv s) (hs : Steady s t)
    (hw : SameWork s.engine t.engine) : LinkOk t := by
  refine ⟨?_, ?_, ?_, ?_, ?_, ?_, fun p r e hm => h.queuePlaced_of_steady hs _ hm r e rfl⟩ <;>
    simp only [hw.entry, hw.target, hw.newGen, hw.basePage, hw.length, hs.device, hs.dir.entry, hs.dir.content,
      layoutTarget_congr hs.dir.layout, overlapsDefined_congr hs.dir.entry]
  · exact fun p r c g => h.recordLink
  · exact fun p op => h.layoutLink
  · exact fun p he => noneDefined_of_sameDir hs.dir (h.formatEmpty he)
  · exact fun e => h.ready
  · obtain ⟨-, -, -, -, -, -, ha, -⟩ := h
    exact ha
  · exact fun p r e => h.defineLink

/-- The directory, the device and mount stay, and the engine goes on with its entry. -/
theorem DirectoryInv.of_work {s t : State} (h : DirectoryInv s) (hs : Steady s t) (hw : SameWork s.engine t.engine) :
    DirectoryInv t :=
  ⟨h.directoryOk_of_sameDir hs.dir, h.deviceOk_of_steady hs fun he => hw.entry.trans he, h.linkOk_of_work hs hw⟩

/-- The directory, the device and mount stay, and the engine is IDLE. -/
theorem DirectoryInv.of_idle {s t : State} (h : DirectoryInv s) (hs : Steady s t) (he : t.engine.entry = none) :
    DirectoryInv t :=
  ⟨h.directoryOk_of_sameDir hs.dir, h.deviceOk_of_steady hs fun _ => he, linkOk_idle he (h.queuePlaced_of_steady hs)⟩

/-! ### The start of an entry -/

theorem startAllowed_ready {s : State} {e : Entry} {rest : List Entry} (hq : s.queue = e :: rest)
    (ha : startAllowed s = true) :
    s.device = .ready ∨ e.work = .layout .format ∧ (s.device = .unformatted ∨ s.device = .layoutDamaged) := by
  simp only [startAllowed, hq, Bool.and_eq_true, Bool.or_eq_true, decide_eq_true_eq] at ha
  exact ha.2

theorem noneDefined_of_not_anyDefined {s : State} (h : anyDefined s = false) : NoneDefined s := fun r => by
  by_contra hr
  exact absurd ((anyDefined_iff s).mpr ⟨r, hr⟩) (by simp [h])

/-- What the start checks of a layout entry ask for (R134). -/
theorem layoutStartCheck_none {s : State} {op : LayoutOp} (h : layoutStartCheck s op = none) :
    (op = .format → s.device = .ready → NoneDefined s) ∧
    (∀ r, op = .delete r ∨ (∃ rs ws g, op = .setAccess r rs ws g) → (slotOf s r).entry ≠ none) ∧
    ∀ r e, op = .define r e → (slotOf s r).entry = none ∧ overlapsDefined s e = false := by
  cases op with
  | format =>
    simp only [layoutStartCheck, ite_eq_right_iff, reduceCtorEq, imp_false, Bool.and_eq_true, decide_eq_true_eq,
      not_and, Bool.not_eq_true] at h
    exact ⟨fun _ hd => noneDefined_of_not_anyDefined (h hd), by simp, by simp⟩
  | define r e =>
    simp only [layoutStartCheck] at h
    split at h
    · contradiction
    · split at h
      · contradiction
      · rename_i hn ho
        refine ⟨by simp, by simp, fun r' e' he => ?_⟩
        obtain ⟨rfl, rfl⟩ := LayoutOp.define.inj he
        exact ⟨by simpa using hn, by simpa using ho⟩
  | delete r =>
    simp only [layoutStartCheck] at h
    split at h
    · rename_i hx
      refine ⟨by simp, fun r' hr => ?_, by simp⟩
      obtain rfl : r = r' := by simpa using hr
      exact Option.isSome_iff_ne_none.mp hx
    · contradiction
  | setAccess r rs ws g =>
    simp only [layoutStartCheck] at h
    split at h
    · rename_i hx
      refine ⟨by simp, fun r' hr => ?_, by simp⟩
      simp only [reduceCtorEq, LayoutOp.setAccess.injEq, false_or] at hr
      obtain ⟨_, _, _, rfl, -⟩ := hr
      exact Option.isSome_iff_ne_none.mp hx
    · contradiction

/-- The engine's part after the start of an entry (R64, R67, R134). -/
theorem DirectoryInv.linkOk_start {s t : State} (h : DirectoryInv s) {e : Entry} {rest : List Entry}
    (hq : s.queue = e :: rest) (ha : startAllowed s = true) (hs : Steady s t) (he : Started s e t.engine) : LinkOk t := by
  have placed : ∀ p r e, ⟨p, .layout (.define r e)⟩ ∈ t.queue → placementOk e.length e.basePage = true :=
    fun p r e hm => h.queuePlaced_of_steady hs _ hm r e rfl
  have hd := startAllowed_ready hq ha
  have headPlaced : Placed e := h.queuePlaced (by rw [hq]; exact List.mem_cons_self)
  have target := layoutTarget_congr hs.dir.layout
  have overlap := overlapsDefined_congr hs.dir.entry
  obtain ⟨p, w⟩ := e
  generalize hE : t.engine = E at he
  cases he with
  | failed => exact linkOk_idle (by rw [hE]; rfl) (h.queuePlaced_of_steady hs)
  | record hw hx =>
    rename_i r cond base le data
    obtain rfl : w = .record r cond base := hw
    refine ⟨fun p' r' c g hr => ?_, fun p' op hr => ?_, fun p' hr => ?_, fun e' hr _ => ?_, fun p' r' hr => ?_,
      fun p' r' e' hr => ?_, placed⟩ <;> simp only [hE, recordEngine, Option.some.injEq, Entry.mk.injEq] at hr
    · obtain ⟨-, hr⟩ := hr
      obtain ⟨rfl, -, -⟩ := Work.record.inj hr
      exact ⟨le, by rw [hs.dir.entry, hx], by rw [hE]; rfl, by rw [hE]; rfl, by rw [hE, hs.dir.content]; rfl,
        by rw [hE, hs.dir.content]; rfl⟩
    · simp at hr
    · simp at hr
    · rw [hs.device]
      exact hd.resolve_right fun x => by simp at x
    · simp at hr
    · simp at hr
  | layout hw hc =>
    rename_i op
    obtain rfl : w = .layout op := hw
    obtain ⟨format, defined, define⟩ := layoutStartCheck_none hc
    refine ⟨fun p' r' c g hr => ?_, fun p' op hr => ?_, fun p' hr => ?_, fun e' hr hf => ?_, fun p' r' hr => ?_,
      fun p' r' e' hr => ?_, placed⟩ <;>
      simp only [hE, layoutEngine, Option.some.injEq, Entry.mk.injEq, Work.layout.injEq, reduceCtorEq, and_false] at hr
    · obtain ⟨-, rfl⟩ := hr
      rw [hE, target]
      exact ⟨rfl, rfl⟩
    · refine noneDefined_of_sameDir hs.dir ?_
      rcases hd with hd | ⟨-, hd⟩
      · exact format hr.2 hd
      · exact (h.blank (.inr hd)).2
    · rw [hs.device]
      exact hd.resolve_right fun x => hf (by rw [← hr]; exact x.1)
    · rw [hs.dir.entry]
      refine defined r' ?_
      rcases hr with ⟨-, hr⟩ | ⟨rs, ws, g, -, hr⟩
      · exact .inl hr
      · exact .inr ⟨rs, ws, g, hr⟩
    · obtain ⟨-, rfl⟩ := hr
      obtain ⟨hn, ho⟩ := define r' e' rfl
      exact ⟨by rw [hs.dir.entry, hn], headPlaced r' e' rfl, by rw [overlap, ho], by rw [hE]; rfl, by rw [hE]; rfl⟩

theorem DirectoryInv.of_start {s t : State} (h : DirectoryInv s) {e : Entry} {rest : List Entry}
    (hq : s.queue = e :: rest) (ha : startAllowed s = true) (hs : Steady s t) (he : Started s e t.engine) :
    DirectoryInv t := by
  refine ⟨h.directoryOk_of_sameDir hs.dir, ?_, h.linkOk_start hq ha hs he⟩
  have hd : s.device ≠ .mounting := fun hd => by simp [(h.no_work hd).2] at hq
  obtain ⟨hm, hw, hb, hl, hg⟩ := h.deviceOk_of_steady (t := { t with engine := Engine.reset })
    ⟨⟨hs.dir.entry, hs.dir.content, hs.dir.undef, hs.dir.layout⟩, hs.device, hs.mount, hs.queue⟩ fun _ => rfl
  exact ⟨hm, fun hd' => absurd (hs.device.symm.trans hd') hd, hb, hl, hg⟩

theorem start_steady {s : State} {e : Entry} {rest : List Entry} (hq : s.queue = e :: rest) :
    Steady s (startEntry e (setQueue rest s)) := by
  have rested : Quiet s (setQueue rest s) := setQueue_quiet fun x hx => by rw [hq]; exact List.mem_cons_of_mem _ hx
  exact rested.steady.trans (startEntry_steady e _)

/-- What the start makes of the engine, seen from before the entry left the queue. -/
theorem start_engine {s : State} {e : Entry} {rest : List Entry} :
    Started s e (startEntry e (setQueue rest s)).engine := by
  have x := startEntry_engine e (setQueue rest s)
  generalize (startEntry e (setQueue rest s)).engine = E at x
  cases x with
  | failed => exact .failed
  | record hw he => exact .record hw he
  | layout hw hc => exact .layout hw hc

/-! ### The completion of an entry -/

theorem DirectoryInv.of_recordDone {s t : State} (h : DirectoryInv s) {p : Port} {r : RecNo} {b : Condition} {g₀ : Gen}
    {c : Plane} {g : Gen} (he : s.engine.entry = some ⟨p, .record r b g₀⟩) (hg : g ≠ 0) (hd : RecordDone s r c g t) :
    DirectoryInv t := by
  obtain ⟨le, hle, -⟩ := h.recordLink he
  have hr := h.ready he (by simp)
  have slots : ∀ q, (slotOf t q).entry = (slotOf s q).entry := fun q => by
    by_cases hq : q = r
    · rw [hq, hd.slot]
    · rw [hd.others q hq]
  refine ⟨h.directoryOk slots (fun q hu => ?_) fun q c' g' hc => ?_, ?_, linkOk_idle (by rw [hd.engine]; rfl) ?_⟩
  · rw [hd.others q fun hq => by simp [← hq, hu, Slot.undefined] at hle, hu]
  · by_cases hq : q = r
    · rw [hq, hd.slot] at hc
      obtain ⟨-, rfl⟩ := Content.valid.inj hc
      exact hg
    · rw [hd.others q hq] at hc
      exact h.generation hc
  · obtain ⟨v, hv⟩ := Option.ne_none_iff_exists'.mp (h.layout_of (.inl hr))
    exact deviceOk_ready (hd.device.trans hr) (hd.mount.trans (h.working he).2) (hd.layout.trans hv) (h.layoutGeneration hv)
  · rw [hd.queue]
    exact fun e => h.queuePlaced

theorem layoutTarget_generation (s : State) (op : LayoutOp) : (layoutTarget s op).2 ≠ 0 := by
  cases op with
  | format => exact fun h => by simp [layoutTarget] at h
  | define | delete | setAccess => exact successor_ne_zero _

/-- An extent's overlaps follow from its place. -/
theorem entriesOverlap_congr {e e' f f' : LayoutEntry} (hl : e'.length = e.length) (hb : e'.basePage = e.basePage)
    (kl : f'.length = f.length) (kb : f'.basePage = f.basePage) :
    entriesOverlap (some e') (some f') = entriesOverlap (some e) (some f) := by
  simp only [entriesOverlap, hl, hb, kl, kb]

/-- The extent of a DEFINE in the engine is apart from every defined record's (R131, R134). -/
theorem DirectoryInv.define_apart {s : State} (h : DirectoryInv s) {p : Port} {r : RecNo} {e : LayoutEntry}
    (he : s.engine.entry = some ⟨p, .layout (.define r e)⟩) (q : RecNo) :
    entriesOverlap (some e) (slotOf s q).entry = false := by
  obtain ⟨-, -, ho, -⟩ := h.defineLink he
  by_contra hq
  exact absurd ((overlapsDefined_iff s e).mpr ⟨q, by simpa using hq⟩) (by simp [ho])

/-- After a layout operation every slot is in order, and the extents are apart (R24, R137). -/
theorem DirectoryInv.directoryOk_of_layoutDone {s t : State} (h : DirectoryInv s) {p : Port} {op : LayoutOp} {c : Plane}
    {g : Gen} (he : s.engine.entry = some ⟨p, .layout op⟩) (hd : LayoutDone s op c g t) : DirectoryOk t := by
  have link : ∀ {q e}, op = .define q e → _ := fun {q e} hop => h.defineLink (p := p) (r := q) (e := e) (by rw [he, hop])
  have apart : ∀ {q e}, op = .define q e → _ := fun {q e} hop =>
    h.define_apart (p := p) (r := q) (e := e) (by rw [he, hop])
  refine ⟨fun q => ?_, fun q q' hq => ?_⟩
  · cases hd.slot q with
    | undefined hy =>
      rw [hy]
      exact ⟨by simp [Slot.undefined], fun _ => rfl, by simp [Slot.undefined]⟩
    | defined e hop hy hc =>
      refine ⟨by simp [hc], by simp [hy], fun e' he' => ?_⟩
      obtain rfl := Option.some.inj (hy.symm.trans he')
      exact (link hop).2.1
    | kept e e' hx hy hl hb hc =>
      refine ⟨fun c g hv => h.generation (hc.symm.trans hv), by simp [hy], fun f hf => ?_⟩
      obtain rfl := Option.some.inj (hy.symm.trans hf)
      rw [hl, hb]
      exact h.place hx
  · cases hd.slot q with
    | undefined hy => rw [hy]; rfl
    | defined e hop hy hc =>
      cases hd.slot q' with
      | undefined hy' => rw [hy', entriesOverlap_comm]; rfl
      | defined e' hop' hy' hc' => exact absurd (LayoutOp.define.inj (hop.symm.trans hop')).1 hq
      | kept f f' hx' hy' hl' hb' hc' =>
        rw [hy, hy', entriesOverlap_congr rfl rfl hl' hb', ← hx']
        exact apart hop q'
    | kept e e' hx hy hl hb hc =>
      cases hd.slot q' with
      | undefined hy' => rw [hy', entriesOverlap_comm]; rfl
      | defined f hop' hy' hc' =>
        rw [entriesOverlap_comm, hy, hy', entriesOverlap_congr rfl rfl hl hb, ← hx]
        exact apart hop' q
      | kept f f' hx' hy' hl' hb' hc' =>
        rw [hy, hy', entriesOverlap_congr hl hb hl' hb', ← hx, ← hx']
        exact h.apart hq

theorem DirectoryInv.of_layoutDone {s t : State} (h : DirectoryInv s) {p : Port} {op : LayoutOp} {c : Plane} {g : Gen}
    (he : s.engine.entry = some ⟨p, .layout op⟩) (hg : g ≠ 0) (hd : LayoutDone s op c g t) : DirectoryInv t := by
  have hr : t.device = .ready := by
    rw [hd.device]
    split
    · rfl
    · rename_i hop
      exact h.ready he fun hw => hop (Work.layout.inj hw)
  refine ⟨h.directoryOk_of_layoutDone he hd, deviceOk_ready hr (hd.mount.trans (h.working he).2) hd.layout hg,
    linkOk_idle (by rw [hd.engine]; rfl) ?_⟩
  rw [hd.queue]
  exact fun e => h.queuePlaced

/-- The completion of the engine's entry, by kind (R71, R137). -/
theorem completeEntry_done {s : State} (h : DirectoryInv s) {e : Entry} (he : s.engine.entry = some e) :
    (∃ p r c g, e = ⟨p, .record r c g⟩ ∧ RecordDone s r (targetCopy (slotOf s r).content.current)
      (successor (slotOf s r).content.generation) (completeEntry e s)) ∨
    ∃ p op, e = ⟨p, .layout op⟩ ∧ LayoutDone s op (layoutTarget s op).1 (layoutTarget s op).2 (completeEntry e s) := by
  obtain ⟨p, w⟩ := e
  cases w with
  | record r c g =>
    obtain ⟨le, -, -, -, ht, hg⟩ := h.recordLink he
    refine .inl ⟨p, r, c, g, rfl, ?_⟩
    simp only [completeEntry, ht, hg]
    exact completeRecord_done _ _ _ _ _
  | layout op =>
    obtain ⟨ht, hg⟩ := h.layoutLink he
    refine .inr ⟨p, op, rfl, ?_⟩
    simp only [completeEntry, ht, hg]
    exact completeLayout_done _ _ _ _ _ fun q => h.undefined

theorem DirectoryInv.of_complete {s : State} (h : DirectoryInv s) {e : Entry} (he : s.engine.entry = some e) :
    DirectoryInv (completeEntry e s) := by
  rcases completeEntry_done h he with ⟨p, r, c, g, rfl, hd⟩ | ⟨p, op, rfl, hd⟩
  · exact h.of_recordDone he (successor_ne_zero _) hd
  · exact h.of_layoutDone he (layoutTarget_generation s op) hd

/-! ### Resets and mount -/

theorem slotOf_reset (r : RecNo) : slotOf State.reset r = Slot.undefined := Table.get_fill _ _

/-- Where no slot is defined. -/
theorem directoryOk_of_undefined {t : State} (h : ∀ r, slotOf t r = Slot.undefined) : DirectoryOk t := by
  refine ⟨fun r => ?_, fun r r' _ => ?_⟩
  · rw [h]
    exact ⟨by simp [Slot.undefined], fun _ => rfl, by simp [Slot.undefined]⟩
  · rw [h, h]
    rfl

theorem directoryInv_reset : DirectoryInv State.reset := by
  refine ⟨directoryOk_of_undefined slotOf_reset, ⟨fun h => absurd rfl h, fun _ => ⟨rfl, rfl⟩,
    fun _ => ⟨rfl, fun r => by rw [slotOf_reset]; rfl⟩, fun h => ?_, fun v hv => by cases hv⟩, linkOk_idle rfl ?_⟩
  · rcases h with h | ⟨r, h⟩ <;> cases h
  · exact fun e he => absurd he List.not_mem_nil

theorem directoryInv_deviceReset (src : ResetSource) (cut : PageBytes) (s : State) :
    DirectoryInv (deviceReset src cut s) := directoryInv_reset

theorem linkOk_mounting {s t : State} (h : DirectoryInv s) (hd : s.device = .mounting) (he : t.engine = s.engine)
    (hq : t.queue = s.queue) : LinkOk t := by
  refine linkOk_idle (by rw [he, (h.no_work hd).1]) ?_
  rw [hq, (h.no_work hd).2]
  exact fun e he => absurd he List.not_mem_nil

/-- Mount goes on from a directory that is in order and has a layout (R147 to R151). -/
theorem directoryInv_of_mountTail {s u t : State} (h : DirectoryInv s) (hd : s.device = .mounting)
    (hx : MountTail u t) (ho : DirectoryOk u) {v : LayoutVersion} (hl : u.dir.layout = some v) (hg : v.generation ≠ 0)
    (hv : u.device = s.device) (he : u.engine = s.engine) (hq : u.queue = s.queue) : DirectoryInv t := by
  have slots : ∀ r, slotOf t r = slotOf u r := fun r => by simp only [slotOf, hx.dir]
  have layout : t.dir.layout = some v := by rw [hx.dir, hl]
  refine ⟨⟨fun r => by rw [slots]; exact ho.1 r, fun r r' hr => by rw [slots, slots]; exact ho.2 r r' hr⟩, ?_,
    linkOk_mounting h hd (hx.engine.trans he) (hx.queue.trans hq)⟩
  rcases hx.goes with ⟨r, hm, hdev⟩ | ⟨hm, hdev⟩
  · have hdev : t.device = .mounting := by rw [hdev, hv, hd]
    simpa [DeviceOk, hm, hdev, layout, hx.engine, hx.queue, he, hq, h.no_work hd] using hg
  · exact deviceOk_ready hdev hm layout hg

theorem slotOf_mounted (s : State) (v : LayoutVersion) (entries : Table 128 (Option LayoutEntry)) (r : RecNo) :
    slotOf (mounted s v entries) r = { Slot.undefined with entry := entries.get r } := Table.get_map _ _ _

/-- The selected layout copy, as it stands in the array (R146, R147). -/
theorem selected_layout {s : State} {v : LayoutVersion} {entries : Table 128 (Option LayoutEntry)}
    (h : selectLayout (classifyLayout (readLayout s .p0)) (classifyLayout (readLayout s .p1)) = .ready v entries) :
    classifyLayout (readLayout s v.current) = .valid v.generation entries :=
  selectLayout_ready (fun pl => classifyLayout (readLayout s pl)) h

theorem directoryOk_mounted {s : State} {v : LayoutVersion} {entries : Table 128 (Option LayoutEntry)}
    (h : classifyLayout (readLayout s v.current) = .valid v.generation entries) : DirectoryOk (mounted s v entries) := by
  obtain ⟨-, hp, ho⟩ := classifyLayout_valid h
  refine ⟨fun r => ?_, fun r r' hr => ?_⟩
  · rw [slotOf_mounted]
    refine ⟨by simp [Slot.undefined], fun hn => ?_, fun e => hp r e⟩
    simp only at hn
    rw [hn]
    rfl
  · rw [slotOf_mounted, slotOf_mounted]
    exact ho r r' hr

theorem mountContent_valid {s : State} {r : RecNo} {e : LayoutEntry} {c : Plane} {g : Gen}
    (h : mountContent s r e = .valid c g) :
    classifyRecord r e.length c (readExtent s.array c e.basePage (extentPages e.length)) = .valid g :=
  selectRecord_valid (fun pl => classifyRecord r e.length pl (readExtent s.array pl e.basePage (extentPages e.length))) h

theorem DirectoryInv.directoryOk_slotMounted {s : State} (h : DirectoryInv s) {r : RecNo} {e : LayoutEntry}
    (he : (slotOf s r).entry = some e) : DirectoryOk (slotMounted s r e) := by
  refine h.directoryOk (fun q => ?_) (fun q hq => ?_) fun q c g hc => ?_
  · rw [slotOf_setSlot]
    split
    · subst_vars; rfl
    · rfl
  · rw [slotOf_setSlot_ne _ _ _ _ fun hr => by simp [hr, hq, Slot.undefined] at he, hq]
  · rw [slotOf_setSlot] at hc
    split at hc
    · exact (classifyRecord_valid (mountContent_valid hc)).2.2
    · exact h.generation hc

theorem DirectoryInv.of_mountEmpty {s : State} (h : DirectoryInv s) {d : DeviceState} (hm : s.mount = .layout)
    (hd : d = .unformatted ∨ d = .layoutDamaged) : DirectoryInv (endMount d s) := by
  have hdev := h.mounting_of_mount (by simp [hm])
  have x := endMount_only d s
  have hdir : SameDir s (endMount d s) := .of_eq (x.dir rfl)
  obtain ⟨hl, hn⟩ := h.blank (.inl ⟨hdev, .inr hm⟩)
  refine ⟨h.directoryOk_of_sameDir hdir, ?_, linkOk_mounting h hdev (x.engine rfl) (x.queue rfl)⟩
  have blank : NoneDefined (endMount d s) := noneDefined_of_sameDir hdir hn
  simp only [DeviceOk, endMount_mount, endMount_device, hdir.layout, hl]
  rcases hd with rfl | rfl <;> simp [blank]

theorem DirectoryInv.of_mountStarts {s t : State} (h : DirectoryInv s) (hd : s.device = .mounting) (hm : s.mount = .idle)
    (ht : t.mount = .layout) (hx : Only { quietHomes with mount := true } s t) : DirectoryInv t := by
  have hdir : SameDir s t := .of_eq (hx.dir rfl)
  obtain ⟨hl, hn⟩ := h.blank (.inl ⟨hd, .inl hm⟩)
  refine ⟨h.directoryOk_of_sameDir hdir, ?_, linkOk_mounting h hd (hx.engine rfl) (hx.queue rfl)⟩
  have blank : NoneDefined t := noneDefined_of_sameDir hdir hn
  simp [DeviceOk, hx.device rfl, hd, ht, hdir.layout, hl, blank, hx.engine rfl, hx.queue rfl, h.no_work hd]

/-! ## Every command keeps the directory -/

theorem PageStep.kept {s : State} {e : Entry} {st : EngineStep} {x : PageBytes} (h : PageStep s e st x)
    (hi : DirectoryInv s) : DirectoryInv (stepLeft s st x) ∧ (stepLeft s st x).engine.entry = some e :=
  ⟨hi.of_work (leavePage_steady _ _ _ _) (by rw [leavePage_engine]; exact .refl _), by rw [leavePage_engine]; exact h.entry⟩

theorem DirectoryInv.of_effect {s t : State} {i : Instr} (h : DirectoryInv s) (x : Effect s i t) : DirectoryInv t := by
  cases x with
  | quiet q => exact h.of_work q.steady q.work
  | reset src cut => exact directoryInv_deviceReset src cut s
  | start hq ha => exact h.of_start hq ha (start_steady hq) start_engine
  | advances a hx hn => exact (a.kept h).1.of_work (askStep_steady _ _ _) (askStep_work _ _ _)
  | completes a hp hx hn => exact (a.kept h).1.of_complete (a.kept h).2
  | again n a hx hk => exact (a.kept h).1.of_work (askStep_steady _ _ _) (askStep_work _ _ _)
  | retreats a hx hp => exact (a.kept h).1.of_work (askStep_steady _ _ _) (askStep_work _ _ _)
  | fails a hx => exact (a.kept h).1.of_idle (failFault_steady _ _) (by rw [failFault_engine]; rfl)
  | mountStarts hd hm ht hx => exact h.of_mountStarts hd hm ht hx
  | mountEmpty d hm hd => exact h.of_mountEmpty hm hd
  | mountLayout hm hs tail =>
    have hv := selected_layout hs
    exact directoryInv_of_mountTail h (h.mounting_of_mount (by simp [hm])) tail (directoryOk_mounted hv) rfl
      (classifyLayout_valid hv).1 rfl rfl rfl
  | mountSlot hm he tail =>
    obtain ⟨v, hv⟩ := Option.ne_none_iff_exists'.mp (h.layout_of (.inr ⟨_, hm⟩))
    exact directoryInv_of_mountTail h (h.mounting_of_mount (by simp [hm])) tail (h.directoryOk_slotMounted he) hv
      (h.layoutGeneration hv) rfl rfl rfl
  | mountDone hm tail =>
    obtain ⟨v, hv⟩ := Option.ne_none_iff_exists'.mp (h.layout_of (.inr ⟨_, hm⟩))
    exact directoryInv_of_mountTail h (h.mounting_of_mount (by simp [hm])) tail h.1 hv (h.layoutGeneration hv) rfl rfl rfl

/-- A step is the idling part, or the front command on the state whose queue of commands is the rest. -/
theorem step_cases {s s' : State} (h : step s = .next s') :
    s.pending = [] ∧ s' = s ∨ ∃ i rest, s.pending = i :: rest ∧ exec i { s with pending := rest } = .next s' := by
  unfold step at h
  split at h
  · exact .inl ⟨‹_›, (Host.Outcome.next.inj h).symm⟩
  · exact .inr ⟨_, _, ‹_›, h⟩

/-- Settles O56: the directory's invariant is kept by everything that a command can do. -/
theorem directoryStaysOk : Obligations.DirectoryStaysOk := by
  intro s s' h hs
  rcases step_cases hs with ⟨-, rfl⟩ | ⟨i, rest, -, hx⟩
  · exact h
  · exact DirectoryInv.of_effect (s := { s with pending := rest }) h (exec_effect hx)

end Sys2Proof.Machine

namespace Sys2Proof.Machine

open Sys2Proof

/-! ## Generations (R10, R11) -/

/-- At the completion of the engine's entry a slot that stays defined keeps its content, unless it is the record of the
commit that completes (R71, R137). -/
theorem completeEntry_content {s : State} (h : DirectoryInv s) {e : Entry} (he : s.engine.entry = some e) {r : RecNo}
    (h0 : (slotOf s r).entry ≠ none) (h1 : (slotOf (completeEntry e s) r).entry ≠ none) :
    (slotOf (completeEntry e s) r).content = (slotOf s r).content ∨
      (slotOf (completeEntry e s) r).content.generation = successor (slotOf s r).content.generation ∧
        ∃ p c b, e = ⟨p, .record r c b⟩ := by
  rcases completeEntry_done h he with ⟨p, r', c, g, rfl, hd⟩ | ⟨p, op, rfl, hd⟩
  · by_cases hr : r = r'
    · subst hr
      exact .inr ⟨by rw [hd.slot]; rfl, p, c, g, rfl⟩
    · exact .inl (by rw [hd.others r hr])
  · cases hd.slot r with
    | undefined hy => exact absurd (by rw [hy]; rfl) h1
    | defined e hop hy hc =>
      subst hop
      exact absurd (h.defineLink he).1 h0
    | kept e e' hx hy hl hb hc => exact .inl hc

/-- Settles O60: a generation moves where a commit completes, and nowhere else outside mount. -/
theorem generationsMoveBySuccessor : Obligations.GenerationsMoveBySuccessor := by
  intro s t i r h hs ht hx h0 h1
  have steady : Steady s t → (slotOf t r).content.generation = (slotOf s r).content.generation := fun k => by
    rw [k.dir.content]
  have mounts : s.mount ≠ .idle → False := fun hm => hs (h.mounting_of_mount hm)
  cases exec_effect hx with
  | quiet q => exact .inl (steady q.steady)
  | reset src cut => exact absurd rfl ht
  | start hq ha => exact .inl (steady (start_steady hq))
  | advances a hp hn => exact .inl (steady ((leavePage_steady _ _ _ _).trans (askStep_steady _ _ _)))
  | completes a hp hp' hn =>
    have kept := a.kept h
    rcases completeEntry_content kept.1 kept.2 (r := r) (by rwa [leavePage_slot]) h1 with hc | ⟨hc, p, c, b, he⟩
    · exact .inl (by rw [hc, leavePage_slot])
    · exact .inr ⟨by rw [hc, leavePage_slot], ⟨_, rfl⟩, p, c, b, by rw [a.entry, he]⟩
  | again n a hp hk => exact .inl (steady ((leavePage_steady _ _ _ _).trans (askStep_steady _ _ _)))
  | retreats a hp hk => exact .inl (steady ((leavePage_steady _ _ _ _).trans (askStep_steady _ _ _)))
  | fails a hp => exact .inl (steady ((leavePage_steady _ _ _ _).trans (failFault_steady _ _)))
  | mountStarts hd => exact absurd hd hs
  | mountEmpty d hm hd => exact absurd (by simp [hm]) mounts
  | mountLayout hm => exact absurd (by simp [hm]) mounts
  | mountSlot hm => exact absurd (by simp [hm]) mounts
  | mountDone hm => exact absurd (by simp [hm]) mounts

/-! ## Where the engine's steps work (R18, R24, R68, R135, R136) -/

/-- A page step works outside the extent of n pages from page b of a plane. -/
def Misses (s : State) (st : EngineStep) (pl : Plane) (b n : Nat) : Prop :=
  stepPlane s st ≠ pl ∨ stepPage s st < b ∨ b + n ≤ stepPage s st

/-- An extent inside a plane is apart from a page of the other plane, and from a page beside it. -/
theorem readExtent_writePage_of_beside {m : Mem} {pl pl' : Plane} {page b n : Nat} {x : PageBytes} (hp : page < 2048)
    (hb : b + n ≤ 2048) (h : pl ≠ pl' ∨ page < b ∨ b + n ≤ page) :
    readExtent (writePage m pl page x) pl' b n = readExtent m pl' b n := by
  refine readExtent_memWriteBytes_outside _ _ _ _ _ _ ?_
  rw [x.size]
  cases pl <;> cases pl' <;>
    simp only [pageAddress, planeIndex, Config.planeBytes, Config.pageBytes, ne_eq, not_true, reduceCtorEq,
      not_false_eq_true, false_or, true_or] at h ⊢ <;> omega

theorem readExtent_of_misses {s : State} {e : Entry} {st : EngineStep} {x : PageBytes} (h : PageStep s e st x)
    {pl : Plane} {b n : Nat} (hb : b + n ≤ 2048) (hm : Misses s st pl b n) :
    readExtent (stepLeft s st x).array pl b n = readExtent s.array pl b n := by
  rw [leavePage_array]
  exact readExtent_writePage_of_beside h.page hb hm

/-- Where a step works: in the extent of a record entry's slot, on the copy that is not current; in the extent of a
DEFINE; or in the layout area. -/
inductive Site (s : State) (st : EngineStep) : Entry → Prop
  | record {p r c g le} (he : (slotOf s r).entry = some le)
      (hp : stepPlane s st = targetCopy (slotOf s r).content.current) (lo : le.basePage ≤ stepPage s st)
      (hi : stepPage s st < le.basePage + extentPages le.length) : Site s st ⟨p, .record r c g⟩
  | define {p r le} (hph : ∃ pl, st.phase = .extentErase pl) (lo : le.basePage ≤ stepPage s st)
      (hi : stepPage s st < le.basePage + extentPages le.length) : Site s st ⟨p, .layout (.define r le)⟩
  | layout {p op} (hph : ∀ pl, st.phase ≠ .extentErase pl) (hi : stepPage s st < 25) : Site s st ⟨p, .layout op⟩

theorem areaBase_record {s : State} {p : Port} {r : RecNo} {c : Condition} {g : Gen}
    (he : s.engine.entry = some ⟨p, .record r c g⟩) : areaBase s = s.engine.basePage := by simp only [areaBase, he]

theorem areaBase_layout {s : State} {p : Port} {op : LayoutOp} (he : s.engine.entry = some ⟨p, .layout op⟩) :
    areaBase s = 0 := by simp only [areaBase, he]

theorem stepOk_of {s : State} (h : PlacesOk s) {e : Entry} {st : EngineStep} (he : s.engine.entry = some e)
    (hs : s.engine.step = some st) : StepOk s e st := h.2.1 e st he hs

/-- The phases and lengths of a record entry's steps (R68, R70). -/
theorem stepOk_record {s : State} {p : Port} {r : RecNo} {c : Condition} {g : Gen} {st : EngineStep}
    (h : StepOk s ⟨p, .record r c g⟩ st) : 1 ≤ st.k ∧ st.k ≤ st.m ∧
      ((st.phase = .erase ∨ st.phase = .program) ∧ st.m = extentPages s.engine.length ∨ st.phase = .invalidate) := by
  obtain ⟨ph, k, m⟩ := st
  obtain ⟨h1, h2, h3⟩ := h
  refine ⟨h1, h2, ?_⟩
  cases ph with
  | erase => exact .inl ⟨.inl rfl, h3⟩
  | program => exact .inl ⟨.inr rfl, h3⟩
  | invalidate => exact .inr rfl
  | extentErase | formatFirst | formatSecond => exact h3.elim

/-- The phases and lengths of a layout entry's steps (R135, R136). -/
theorem stepOk_layout {s : State} {p : Port} {op : LayoutOp} {st : EngineStep} (h : StepOk s ⟨p, .layout op⟩ st) :
    1 ≤ st.k ∧ st.k ≤ st.m ∧
      ((∃ r e pl, op = .define r e ∧ st.phase = .extentErase pl ∧ st.m = extentPages s.engine.length) ∨
       (op = .format ∧ (st.phase = .formatFirst ∨ st.phase = .formatSecond) ∨ op ≠ .format ∧ st.phase = .erase ∨
        st.phase = .program) ∧ st.m = 25) := by
  obtain ⟨ph, k, m⟩ := st
  obtain ⟨h1, h2, h3⟩ := h
  refine ⟨h1, h2, ?_⟩
  cases ph with
  | extentErase pl =>
    cases op with
    | define r e => exact .inl ⟨r, e, pl, rfl, rfl, h3⟩
    | format | delete | setAccess => exact h3.elim
  | formatFirst =>
    cases op with
    | format => exact .inr ⟨.inl ⟨rfl, .inl rfl⟩, h3⟩
    | define | delete | setAccess => exact h3.elim
  | formatSecond =>
    cases op with
    | format => exact .inr ⟨.inl ⟨rfl, .inr rfl⟩, h3⟩
    | define | delete | setAccess => exact h3.elim
  | erase =>
    cases op with
    | format => exact absurd rfl h3.1
    | define | delete | setAccess => exact .inr ⟨.inr (.inl ⟨h3.1, rfl⟩), h3.2⟩
  | program => exact .inr ⟨.inr (.inr rfl), by cases op <;> exact h3⟩
  | invalidate => cases op <;> exact h3.elim

theorem step_site {s : State} (hi : DirectoryInv s) (hp : PlacesOk s) {e : Entry} {st : EngineStep}
    (he : s.engine.entry = some e) (hs : s.engine.step = some st) : Site s st e := by
  have ok := stepOk_of hp he hs
  obtain ⟨p, w⟩ := e
  cases w with
  | record r c g =>
    obtain ⟨le, hle, hb, hl, ht, -⟩ := hi.recordLink he
    have ha := areaBase_record he
    have hn := extentPages_pos le.length
    obtain ⟨h1, h2, h3⟩ := stepOk_record ok
    rw [hl] at h3
    refine .record hle ?_ ?_ ?_
    · rcases h3 with ⟨h3 | h3, -⟩ | h3 <;> simp only [stepPlane, h3, ht, Option.getD_some]
    · rcases h3 with ⟨h3 | h3, -⟩ | h3 <;> simp only [stepPage, h3, ha, hb] <;> (try split) <;> omega
    · rcases h3 with ⟨h3 | h3, hm⟩ | h3 <;> simp only [stepPage, h3, ha, hb] <;> (try split) <;> omega
  | layout op =>
    have ha := areaBase_layout he
    obtain ⟨h1, h2, ⟨r, e, pl, rfl, hph, hm⟩ | ⟨hph, hm⟩⟩ := stepOk_layout ok
    · obtain ⟨-, -, -, hb, hl⟩ := hi.defineLink he
      rw [hl] at hm
      refine .define ⟨pl, hph⟩ ?_ ?_ <;> simp only [stepPage, hph, hb] <;> omega
    · have phase : st.phase = .formatFirst ∨ st.phase = .formatSecond ∨ st.phase = .erase ∨ st.phase = .program := by
        rcases hph with ⟨-, hph | hph⟩ | ⟨-, hph⟩ | hph <;> simp [hph]
      refine .layout (fun pl h => by simp [h] at phase) ?_
      rcases phase with hph | hph | hph | hph <;> simp only [stepPage, hph, ha] <;> (try split) <;> omega

/-- Two extents that do not overlap share no page. -/
theorem beside_of_apart {e f : LayoutEntry} (h : entriesOverlap (some e) (some f) = false) {page : Nat}
    (lo : e.basePage ≤ page) (hi : page < e.basePage + extentPages e.length) :
    page < f.basePage ∨ f.basePage + extentPages f.length ≤ page := by
  simp only [entriesOverlap, extentsOverlap, Bool.and_eq_false_iff, decide_eq_false_iff_not] at h
  omega

/-- A step misses every stored copy of a record but the target of that record's own entry. -/
theorem step_misses_copy {s : State} (hi : DirectoryInv s) (hp : PlacesOk s) {e : Entry} {st : EngineStep}
    (he : s.engine.entry = some e) (hs : s.engine.step = some st) {r : RecNo} {le : LayoutEntry} {pl : Plane}
    (hr : (slotOf s r).entry = some le) (hn : ∀ p c g, e = ⟨p, .record r c g⟩ → stepPlane s st ≠ pl) :
    Misses s st pl le.basePage (extentPages le.length) := by
  obtain ⟨-, -, hb, -⟩ := (placementOk_iff _ _).mp (hi.place hr)
  cases step_site hi hp he hs with
  | record hle hpl lo hh =>
    rename_i p r' c g le'
    by_cases hq : r' = r
    · subst hq
      exact .inl (hn p c g rfl)
    · exact .inr (beside_of_apart (by have := hi.apart hq; rwa [hle, hr] at this) lo hh)
  | define hph lo hh => exact .inr (beside_of_apart (by have := hi.define_apart he r; rwa [hr] at this) lo hh)
  | layout hph hh => exact .inr (.inl (by omega))

theorem targetCopy_ne (c : Plane) : targetCopy (some c) ≠ c := by cases c <;> decide

/-- A step misses the current copy of every VALID record (R12). -/
theorem step_misses_current {s : State} (hi : DirectoryInv s) (hp : PlacesOk s) {e : Entry} {st : EngineStep}
    (he : s.engine.entry = some e) (hs : s.engine.step = some st) {r : RecNo} {le : LayoutEntry} {c : Plane} {g : Gen}
    (hr : (slotOf s r).entry = some le) (hc : (slotOf s r).content = .valid c g) :
    Misses s st c le.basePage (extentPages le.length) := by
  refine step_misses_copy hi hp he hs hr fun p c' g' hE => ?_
  subst hE
  cases step_site hi hp he hs with
  | record hle hpl lo hh =>
    rw [hpl, hc]
    exact targetCopy_ne c

/-! ### Which page a command writes -/

/-- A command leaves the array, or writes the page of the engine's step. -/
inductive ArrayEffect (s t : State) : Prop
  | same (h : t.array = s.array)
  | page (st : EngineStep) (x : PageBytes) (hs : s.engine.step = some st) (hp : stepPage s st < Config.planePages)
      (h : t.array = writePage s.array (stepPlane s st) (stepPage s st) x)

theorem cutStep_effect (cut : PageBytes) (src : ResetSource) (s : State) : ArrayEffect s (deviceReset src cut s) := by
  have array : (deviceReset src cut s).array = cutStep cut s := rfl
  unfold cutStep at array
  split at array
  · rename_i st hs
    split at array
    · rename_i hp
      exact .page st _ hs (of_decide_eq_true (Bool.and_eq_true_iff.mp hp).2) array
    · exact .same array
  · exact .same array

theorem PageStep.array {s t : State} {e : Entry} {st : EngineStep} {x : PageBytes} (h : PageStep s e st x)
    (ht : t.array = (stepLeft s st x).array) : ArrayEffect s t :=
  .page st x h.step h.page (by rw [ht, leavePage_array])

theorem Effect.array {s t : State} {i : Instr} (x : Effect s i t) : ArrayEffect s t := by
  cases x with
  | quiet q => exact .same q.array
  | reset src cut => exact cutStep_effect cut src s
  | start hq ha => exact .same (startEntry_array _ _)
  | advances a hp hn => exact a.array (askStep_array _ _ _)
  | completes a hp hp' hn => exact a.array ((completeEntry_only _ _).array rfl)
  | again n a hp hk => exact a.array (askStep_array _ _ _)
  | retreats a hp hk => exact a.array (askStep_array _ _ _)
  | fails a hp => exact a.array (failFault_array _ _)
  | mountStarts hd hm ht h => exact .same (h.array rfl)
  | mountEmpty d hm hd => exact .same ((endMount_only d s).array rfl)
  | mountLayout hm hs tail => exact .same tail.array
  | mountSlot hm he tail => exact .same tail.array
  | mountDone hm tail => exact .same tail.array

/-- A command leaves the bytes of every current copy (R4, R12). -/
theorem ArrayEffect.current {s t : State} (h : ArrayEffect s t) (hi : DirectoryInv s) (hp : PlacesOk s) {r : RecNo}
    {e : LayoutEntry} {c : Plane} {g : Gen} (he : (slotOf s r).entry = some e) (hc : (slotOf s r).content = .valid c g) :
    readExtent t.array c e.basePage (extentPages e.length) = readExtent s.array c e.basePage (extentPages e.length) := by
  cases h with
  | same h => rw [h]
  | page st x hs hpage h =>
    obtain ⟨entry, hentry⟩ : ∃ entry, s.engine.entry = some entry :=
      Option.ne_none_iff_exists'.mp fun hn => by simp [hp.2.2 hn] at hs
    obtain ⟨-, -, -, hb⟩ := (placementOk_iff _ _).mp (hi.place he)
    rw [h]
    exact readExtent_writePage_of_beside hpage hb (step_misses_current hi hp hentry hs he hc)

/-- Settles O58: a command writes at most the page of the engine's step, and that page misses every current copy. -/
theorem currentCopiesAreUntouched : Obligations.CurrentCopiesAreUntouched :=
  fun _ _ _ _ _ _ _ hi hp hx he hc => (exec_effect hx).array.current hi hp he hc

/-! ## QUERY RECORD (R16) -/

/-- QUERY RECORD in READY, by what its body spells. -/
theorem exec_queryRecord {s : State} {p : Port} (tag : Byte) {body : List Byte} (h : CanServe s p)
    (hb : body.length ≤ 252) :
    exec (.queryRecord p tag body) s = .next (match recordBody body with
      | some r => answered s p tag body .ok (recordReport p r s)
      | none => answered s p tag body .range []) := by
  have report : ∀ r, recordReport p r (awaiting s p tag body) = recordReport p r s := fun r => rfl
  show Host.Outcome.next (takeRequest _ p tag body .whole _ s) = _
  rw [takeRequest_accepted _ _ _ _ _ _ h.1 hb]
  simp only [serveQueryRecord, whenReady, awaiting_device, h.2, if_true, withBody]
  cases recordBody body with
  | some r => simp only [report, respond_awaiting_self]
  | none => simp only [refuse_awaiting_self]

theorem recordBody_recByte (r : RecNo) : recordBody [recByte r] = some r := recordOfByte_recByte r

theorem recordBody_none {body : List Byte} (h : body.length ≠ 1 ∨ ∃ rb : Byte, body = [rb] ∧ 128 ≤ rb.toNat) :
    recordBody body = none := by
  rcases h with h | ⟨rb, rfl, h⟩
  · match body with
    | [] => rfl
    | [_] => exact absurd rfl h
    | _ :: _ :: _ => rfl
  · exact (recordOfByte_none rb).mpr h

/-- The report on a defined record (R16, 13.3). -/
theorem recordReport_defined {s : State} {p : Port} {r : RecNo} {e : LayoutEntry} (he : (slotOf s r).entry = some e) :
    recordReport p r s =
      [recByte r, 1, natByte e.length, BitVec.ofNat 8 e.basePage, BitVec.ofNat 8 (e.basePage / 256),
        portSetByte e.readSet, portSetByte e.writeSet, if e.guarded then 1 else 0, natByte (extentPages e.length),
        contentByte (slotOf s r).content, optPlaneByte (slotOf s r).content.current] ++
      genBytes (slotOf s r).content.generation ++
      [portSetByte (slotOf s r).watch, if (slotOf s r).watch.get p then 1 else 0,
        if (slotOf s r).deletePending then 1 else 0, optPortByte (lockOf s r).holder, natByte (lockOf s r).lease,
        natByte (lockOf s r).waits.length] ++
      (lockOf s r).waits.flatMap fun w => [portByte w.port, natByte w.remaining] := by
  simp only [recordReport, he, Option.map_some, Option.getD_some, Option.isSome_some, boolByte, if_true, genBytes_ofNat,
    List.cons_append, List.nil_append]
  rfl

/-- The report on an undefined record, whose lock is free (R2, R16). -/
theorem recordReport_undefined {s : State} {p : Port} {r : RecNo} (hs : slotOf s r = Slot.undefined)
    (hl : lockOf s r = Lock.free) :
    recordReport p r s = [recByte r, 0, 0, 0, 0, 0, 0, 0, 0, 0, 0xFF, 0, 0, 0, 0, 0, 0xFF, 0, 0] := by
  simp only [recordReport, hs, hl]
  cases p <;> rfl

/-- Settles O11: the request is served at once, and its report is R16's, field by field. -/
theorem queryRecordReports : Obligations.QueryRecordReports := by
  intro s p tag h
  have served : ∀ r, exec (.queryRecord p tag [recByte r]) s =
      .next (answered s p tag [recByte r] .ok (recordReport p r s)) := fun r => by
    rw [exec_queryRecord tag h (by simp), recordBody_recByte]
  refine ⟨fun r e he => ?_, fun r hs hl => ?_, fun body hb hbad => ?_, recByte_toNat⟩
  · rw [served, recordReport_defined he]
  · rw [served, recordReport_undefined hs hl]
  · rw [exec_queryRecord tag h hb, recordBody_none hbad]

/-! ## The state right after reset -/

/-- Settles O50: no slot is defined, the engine, the queue, the reads and the locks are at rest. -/
theorem resetHoldsTheInvariants : Obligations.ResetHoldsTheInvariants := by
  have slots := slotOf_reset
  have locks : ∀ r, lockOf State.reset r = Lock.free := fun r => Table.get_fill _ _
  have ports : ∀ p, State.reset.ports.get p = PortIf.reset := PerPort.get_all _
  have sessions : ∀ p, State.reset.sessions.get p = Session.reset := PerPort.get_all _
  have reads : ∀ p, State.reset.reads.get p = none := PerPort.get_all _
  have notices : ∀ p, State.reset.notices.get p = [] := PerPort.get_all _
  have flags : ∀ p, State.reset.flags.get p = Flags.clear := PerPort.get_all _
  have masks : ∀ p, State.reset.masks.get p = Flags.full := PerPort.get_all _
  have csLow : ∀ p, State.reset.csLow.get p = false := PerPort.get_all _
  have engine : State.reset.engine = Engine.reset := rfl
  have queue : State.reset.queue = [] := rfl
  have none : NoneDefined State.reset := fun r => by rw [slots]; rfl
  refine ⟨reset_arrayWf, by simp [TransportOk, PortOk, ports, csLow, PortIf.reset],
    by simp [NoticesOk, notices, flags, Flags.clear], ⟨fun r => by rw [locks]; exact ⟨rfl, rfl, rfl⟩,
      by simp [locks, Lock.free, waitsOn]⟩,
    by simp [QueueOk, queue, sessions, engine, Session.reset, Engine.reset], by simp [ReadsOk, reads],
    by simp [StagingOk, LayoutQueued, queue, sessions, engine, Session.reset, Engine.reset], directoryInv_reset,
    by simp [PlacesOk, reads, engine, Engine.reset], by simp [ImagesOk, none _],
    by simp [ProgressOk, engine, Engine.reset], by simp [BufferOk, engine, Engine.reset], ?_,
    fun r => ⟨fun _ => locks r, by simp [none r]⟩, ?_, by simp [HeaderOk, engine, Engine.reset],
    by simp [OtherCopyOk, none _], .inl none, (fun v hv => by cases hv), rfl, rfl, rfl, fun r => ⟨slots r, locks r⟩,
    fun p => ⟨sessions p, masks p, flags p⟩, rfl, rfl⟩
  · refine ⟨fun r p hw => ?_, by simp [notices]⟩
    rw [slots] at hw
    cases p <;> simp [Slot.undefined, PortSet.empty, PerPort.get, PerPort.all] at hw
  · simp [PendingOk, deletesUnderWay, engine, queue, Engine.reset, slots, Slot.undefined]

end Sys2Proof.Machine

namespace Sys2Proof.Machine

open Sys2Proof

/-! ## Pages and images (R18, R19) -/

theorem readPage_get (m : Mem) (pl : Plane) (page : Nat) (i : Fin 32) :
    (readPage m pl page).get i = memRead m (pageAddress pl page + i.val) := by
  simp [Table.get, readPage, memReadBytes]

/-- A page write leaves the other pages of its plane. -/
theorem readPage_writePage_ne (m : Mem) (pl : Plane) {page page' : Nat} (x : PageBytes) (h : page' ≠ page) :
    readPage (writePage m pl page x) pl page' = readPage m pl page' := by
  refine Table.ext_get fun i => ?_
  have hi := i.isLt
  rw [readPage_get, readPage_get, memRead_writePage_outside]
  simp only [pageAddress, Config.pageBytes]
  omega

/-- A page of another plane, too. -/
theorem readPage_writePage_plane (m : Mem) {pl pl' : Plane} {page page' : Nat} (x : PageBytes) (hp : page < 2048)
    (hp' : page' < 2048) (h : pl ≠ pl') : readPage (writePage m pl page x) pl' page' = readPage m pl' page' :=
  Table.cells_injective (readExtent_writePage_of_beside (n := 1) hp (by omega) (.inl h))

theorem imagePage_get {image : List Byte} {j : Nat} {i : Fin 32} (h : 32 * j + i.val < image.length) :
    (imagePage image j).get i = image[32 * j + i.val] := by
  have hd : i.val < (image.drop (32 * j)).length := by rw [List.length_drop]; omega
  simp only [imagePage, Table.get, Table.ofList, List.getElem_take, List.getElem_append_left hd, List.getElem_drop]

/-- An extent whose pages are an image's pages reads as the image. -/
theorem readExtent_of_pages {m : Mem} {pl : Plane} {b n : Nat} {image : List Byte} (hl : image.length = 32 * n)
    (h : ∀ j, j < n → readPage m pl (b + j) = imagePage image j) : readExtent m pl b n = image := by
  apply List.ext_getElem
  · simp only [readExtent, memReadBytes, List.length_map, List.length_range, hl]
  · intro i h1 h2
    have hi : 32 * (i / 32) + i % 32 = i := Nat.div_add_mod i 32
    have cell : (imagePage image (i / 32)).get ⟨i % 32, Nat.mod_lt i (by decide)⟩ = image[i] := by
      rw [imagePage_get (by simpa only [hi] using h2)]
      simp only [hi]
    rw [← cell, ← h (i / 32) (by omega), readPage_get]
    simp only [readExtent, memReadBytes, List.getElem_map, List.getElem_range, pageAddress, Config.pageBytes]
    congr 1
    omega

/-! ## The engine's entry and its image -/

theorem areaBase_congr {s t : State} (h : SameWork s.engine t.engine) : areaBase t = areaBase s := by
  simp only [areaBase, h.entry, h.basePage]

theorem entryImage_congr {s t : State} (h : SameWork s.engine t.engine) : entryImage t = entryImage s := by
  simp only [entryImage, h.entry, h.buffer, h.length, h.target, h.newGen]

theorem layoutAfter_congr {s t : State} (h : ∀ r, (slotOf t r).entry = (slotOf s r).entry) (op : LayoutOp) :
    layoutAfter t op = layoutAfter s op := by
  have now : t.dir.slots.map Slot.entry = s.dir.slots.map Slot.entry :=
    Table.ext_get fun r => by rw [Table.get_map, Table.get_map]; exact h r
  simp only [layoutAfter, now]

/-- The image of a record entry (R63, R66). -/
theorem entryImage_record {s : State} (hb : BufferOk s) {p : Port} {r : RecNo} {c : Condition} {g : Gen}
    (he : s.engine.entry = some ⟨p, .record r c g⟩) :
    ∃ data : Table 248 Byte,
      entryImage s = recordImage r s.engine.length (s.engine.target.getD .p0) s.engine.newGen data.cells := by
  obtain ⟨b, hb⟩ := hb.1 p r c g he
  exact ⟨b, by simp only [entryImage, hb, he]⟩

/-- The image of a layout entry (R134). -/
theorem entryImage_layout {s : State} (hb : BufferOk s) {p : Port} {op : LayoutOp}
    (he : s.engine.entry = some ⟨p, .layout op⟩) :
    entryImage s = layoutImage s.engine.newGen (layoutAfter s op).cells := by
  simp only [entryImage, hb.2 p op he]
  exact List.take_left' (layoutImage_length _ _)

/-- The header page of a record image begins with its marker (R25). -/
theorem recordImage_marker (r : RecNo) (n : Nat) (c : Plane) (g : Gen) (data : List Byte) :
    (imagePage (recordImage r n c g data) 0).get 0 = 0x3C := rfl

/-! ## How the engine goes on -/

/-- The step after an attempt: the next one, the same again, or the invalidation (R69, R70). -/
inductive Moves (s : State) (e : Entry) (st : EngineStep) (x : PageBytes) (st' : EngineStep) : Prop
  | advances (hx : Passes s st x) (hn : nextStep st = some st')
  | again (hx : ¬Passes s st x) (hp : st.phase ≠ .invalidate) (hs : st' = st)
  | retreats {p r c g} (he : e = ⟨p, .record r c g⟩) (hx : ¬Passes s st x)
      (hp : st.phase = .erase ∧ st.k ≠ 1 ∨ st.phase = .program ∧ st.k ≠ st.m)
      (hs : st' = { phase := .invalidate, k := 1, m := st.m })

/-- After an attempt the engine goes on with its entry, at a step. -/
structure GoesOn (s : State) (e : Entry) (st : EngineStep) (x : PageBytes) (st' : EngineStep) (t : State) : Prop where
  page : PageStep s e st x
  moves : Moves s e st x st'
  work : SameWork s.engine t.engine
  step : t.engine.step = some st'
  array : t.array = writePage s.array (stepPlane s st) (stepPage s st) x
  steady : Steady s t

theorem goesOn_askStep {s : State} {e : Entry} {st st' : EngineStep} {x : PageBytes} (n : Nat) (h : PageStep s e st x)
    (m : Moves s e st x st') : GoesOn s e st x st' (askStep st' n (stepLeft s st x)) := by
  refine ⟨h, m, ?_, by rw [askStep_engine], by rw [askStep_array, leavePage_array],
    (leavePage_steady _ _ _ _).trans (askStep_steady _ _ _)⟩
  have w := askStep_work st' n (stepLeft s st x)
  rwa [leavePage_engine] at w

/-- What a command does to the engine: nothing; a start; an attempt after which it goes on; or it is IDLE. -/
inductive EngineEffect (s t : State) : Prop
  | quiet (h : Quiet s t)
  | started {e} (hs : Steady s t) (he : Started s e t.engine) (ha : t.array = s.array)
  | goesOn {e st x st'} (h : GoesOn s e st x st' t)
  | idle (h : t.engine.entry = none)

theorem completeEntry_idle {s : State} (h : DirectoryInv s) {e : Entry} (he : s.engine.entry = some e) :
    (completeEntry e s).engine = Engine.reset := by
  rcases completeEntry_done h he with ⟨p, r, c, g, rfl, hd⟩ | ⟨p, op, rfl, hd⟩ <;> exact hd.engine

theorem Effect.engine {s t : State} {i : Instr} (x : Effect s i t) (h : DirectoryInv s) : EngineEffect s t := by
  have mounting : s.mount ≠ .idle → t.engine = s.engine → EngineEffect s t := fun hm he =>
    .idle (by rw [he, (h.no_work (h.mounting_of_mount hm)).1])
  cases x with
  | quiet q => exact .quiet q
  | reset src cut => exact .idle rfl
  | start hq ha => exact .started (start_steady hq) start_engine (startEntry_array _ _)
  | advances a hx hn => exact .goesOn (goesOn_askStep 1 a (.advances hx hn))
  | completes a hp hx hn => exact .idle (by rw [completeEntry_idle (a.kept h).1 (a.kept h).2]; rfl)
  | again n a hx hp => exact .goesOn (goesOn_askStep n a (.again hx hp rfl))
  | retreats a hx hp => exact .goesOn (goesOn_askStep 1 a (.retreats rfl hx hp rfl))
  | fails a hx => exact .idle (by rw [failFault_engine]; rfl)
  | mountStarts hd hm ht hx => exact .idle (by rw [hx.engine rfl, (h.no_work hd).1])
  | mountEmpty d hm hd => exact mounting (by simp [hm]) ((endMount_only d s).engine rfl)
  | mountLayout hm hs tail => exact mounting (by simp [hm]) tail.engine
  | mountSlot hm he tail => exact mounting (by simp [hm]) tail.engine
  | mountDone hm tail => exact mounting (by simp [hm]) tail.engine

/-! ## The engine buffer (R63, R66, R134) -/

theorem bufferOk_idle {t : State} (h : t.engine.entry = none) : BufferOk t := by simp [BufferOk, h]

theorem bufferOk_of_work {s t : State} (h : BufferOk s) (hd : SameDir s t) (hw : SameWork s.engine t.engine) :
    BufferOk t := by
  simp only [BufferOk, hw.entry, hw.buffer, hw.newGen, layoutAfter_congr hd.entry]
  exact h

theorem bufferOk_started {s t : State} {e : Entry} (hd : SameDir s t) (he : Started s e t.engine) : BufferOk t := by
  simp only [BufferOk, layoutAfter_congr hd.entry]
  generalize t.engine = E at he
  obtain ⟨p, w⟩ := e
  cases he with
  | failed => simp [Engine.reset]
  | record hw hx =>
    obtain rfl : w = _ := hw
    exact ⟨fun _ _ _ _ _ => ⟨_, rfl⟩, by simp [recordEngine]⟩
  | layout hw hc =>
    obtain rfl : w = _ := hw
    refine ⟨by simp [layoutEngine], fun p' op hop => ?_⟩
    simp only [layoutEngine, Option.some.injEq, Entry.mk.injEq, Work.layout.injEq] at hop
    obtain ⟨-, rfl⟩ := hop
    rfl

theorem BufferOk.of_effect {s t : State} (h : BufferOk s) (x : EngineEffect s t) : BufferOk t := by
  cases x with
  | quiet q => exact bufferOk_of_work h q.steady.dir q.work
  | started hs he ha => exact bufferOk_started hs.dir he
  | goesOn g => exact bufferOk_of_work h g.steady.dir g.work
  | idle he => exact bufferOk_idle he

/-! ## The pages programmed so far (R68, R69, R135) -/

/-- The next step programs only after a step that programmed, one page on, or at its first page. -/
theorem nextStep_program {st st' : EngineStep} (h : nextStep st = some st') (hp : st'.phase = .program) :
    (st.phase = .program ∧ st.k < st.m ∧ st'.k = st.k + 1) ∨ st'.k = 1 := by
  obtain ⟨ph, k, m⟩ := st
  unfold nextStep at h
  split at h
  · rename_i hk
    obtain rfl := Option.some.inj h
    exact .inl ⟨hp, hk.1, rfl⟩
  · cases ph with
    | extentErase pl => cases pl <;> obtain rfl := Option.some.inj h <;> exact .inr rfl
    | formatFirst | formatSecond | erase => obtain rfl := Option.some.inj h; exact .inr rfl
    | program | invalidate => simp at h

theorem stepPlane_program {s : State} {st : EngineStep} (h : st.phase = .program) :
    stepPlane s st = s.engine.target.getD .p0 := by simp only [stepPlane, h]

theorem stepPage_program {s : State} {st : EngineStep} (h : st.phase = .program) :
    stepPage s st = if st.k = st.m then areaBase s else areaBase s + st.k := by simp only [stepPage, h]

/-- What a program attempt leaves of the earlier pages of the area, and of its own. -/
theorem program_pages {s : State} (ha : ArrayOk s) (hr : ProgressOk s) {e : Entry} {st : EngineStep} {x : PageBytes}
    (h : PageStep s e st x) (hp : st.phase = .program) {j : Nat} (h1 : 1 ≤ j)
    (hj : j < st.k ∨ j = st.k ∧ st.k ≠ st.m ∧ x = stepContent s st) :
    readPage (writePage s.array (stepPlane s st) (stepPage s st) x) (s.engine.target.getD .p0) (areaBase s + j) =
      imagePage (entryImage s) j := by
  rw [stepPlane_program hp]
  rcases hj with hj | ⟨rfl, hm, hx⟩
  · rw [readPage_writePage_ne _ _ _ (by rw [stepPage_program hp]; split <;> omega)]
    exact hr e st j h.entry h.step hp h1 hj
  · have page : stepPage s st = areaBase s + st.k := by rw [stepPage_program hp, if_neg hm]
    rw [← page, readPage_writePage _ _ _ _ h.page ha, hx, stepContent, if_neg hm]

theorem ProgressOk.goesOn {s t : State} (hr : ProgressOk s) (ha : ArrayOk s) {e : Entry} {st st' : EngineStep}
    {x : PageBytes} (g : GoesOn s e st x st' t) : ProgressOk t := by
  intro e' st'' j _ hst hp h1 hj
  obtain rfl := Option.some.inj (g.step.symm.trans hst)
  rw [areaBase_congr g.work, entryImage_congr g.work, g.work.target, g.array]
  cases g.moves with
  | advances hx hn =>
    rcases nextStep_program hn hp with ⟨hp', hk, hk'⟩ | hk'
    · refine program_pages ha hr g.page hp' h1 ?_
      rcases Nat.lt_or_ge j st.k with hlt | hge
      · exact .inl hlt
      · refine .inr ⟨by omega, by omega, ?_⟩
        rcases hx with ⟨he, -⟩ | ⟨-, hx⟩
        · simp [hp', phaseState] at he
        · exact hx
    · omega
  | again hx hi hs =>
    subst hs
    exact program_pages ha hr g.page hp h1 (.inl hj)
  | retreats he hx hp' hs =>
    subst hs
    simp at hp

theorem started_not_program {s : State} {e : Entry} {E : Engine} (h : Started s e E) {st : EngineStep}
    (hs : E.step = some st) : st.phase ≠ .program ∧ st.phase ≠ .invalidate ∧ st.k = 1 := by
  cases h with
  | failed => simp [Engine.reset] at hs
  | record hw hx =>
    obtain rfl := Option.some.inj hs
    simp
  | layout hw hc =>
    rename_i op
    obtain rfl := Option.some.inj hs
    cases op <;> simp [firstLayoutStep]

theorem ProgressOk.of_effect {s t : State} (h : ProgressOk s) (ha : ArrayOk s) (x : EngineEffect s t) : ProgressOk t := by
  cases x with
  | quiet q =>
    simp only [ProgressOk, q.work.entry, q.step, q.work.target, q.array, areaBase_congr q.work, entryImage_congr q.work]
    exact h
  | started hs he _ => exact fun e st j _ hst hp _ _ => absurd hp (started_not_program he hst).1
  | goesOn g => exact h.goesOn ha g
  | idle he => exact fun e st j hE => by simp [he] at hE

end Sys2Proof.Machine

namespace Sys2Proof.Machine

open Sys2Proof

/-! ## The header pages an entry works on (R20, R21, R68, R70, R135) -/

/-- What a record entry's header page holds at a step: erased until the header is programmed, and while that is tried,
the image's header with byte 0 not yet its marker. -/
def RecordHeader (image : List Byte) (st : EngineStep) (header : PageBytes) : Prop :=
  (st.phase = .erase ∧ 2 ≤ st.k ∨ st.phase = .program ∧ st.k < st.m ∨ st.phase = .invalidate → header = erasedPage) ∧
  (st.phase = .program → st.k = st.m →
    header.get 0 ≠ 0x3C ∧ ∀ i : Fin 32, header.get i &&& (imagePage image 0).get i = (imagePage image 0).get i)

/-- What the header pages of a DEFINE's extent hold at a step, in plane 0 and in plane 1. -/
def DefineHeaders (st : EngineStep) (header0 header1 : PageBytes) : Prop :=
  (st.phase ≠ .extentErase .p0 ∨ 2 ≤ st.k → header0 = erasedPage) ∧
  (st.phase = .erase ∨ st.phase = .program ∨ (st.phase = .extentErase .p1 ∧ 2 ≤ st.k) → header1 = erasedPage)

theorem headerOk_iff (s : State) : HeaderOk s ↔
    (∀ p r c g st pl, s.engine.entry = some ⟨p, .record r c g⟩ → s.engine.step = some st → s.engine.target = some pl →
      RecordHeader (entryImage s) st (readPage s.array pl s.engine.basePage)) ∧
    ∀ p r e st, s.engine.entry = some ⟨p, .layout (.define r e)⟩ → s.engine.step = some st →
      DefineHeaders st (readPage s.array .p0 e.basePage) (readPage s.array .p1 e.basePage) := Iff.rfl

theorem erasedPage_get (i : Fin 32) : erasedPage.get i = 0xFF := Table.get_fill _ _

theorem recordHeader_erased (image : List Byte) (st : EngineStep) : RecordHeader image st erasedPage := by
  refine ⟨fun _ => rfl, fun _ _ => ⟨by rw [erasedPage_get]; decide, fun i => ?_⟩⟩
  rw [erasedPage_get]
  exact BitVec.allOnes_and

/-- A program attempt that fails on a header page with byte 0 not yet the marker leaves it so (R21). -/
theorem programAttempt_header_fails {old new cleared : PageBytes} (h0 : old.get 0 ≠ 0x3C)
    (h1 : ∀ i, old.get i &&& new.get i = new.get i) (hm : new.get 0 = 0x3C)
    (hx : programAttempt old new cleared ≠ new) :
    (programAttempt old new cleared).get 0 ≠ 0x3C ∧
      ∀ i, (programAttempt old new cleared).get i &&& new.get i = new.get i := by
  refine ⟨fun h => hx (Table.ext_get fun i => ?_), fun i => ?_⟩
  · by_cases hi : i = 0
    · rw [hi, h, hm]
    · rw [programAttempt_done_before_byte0 old new cleared (by rw [h]; exact Ne.symm h0) i hi, h1]
  · have ones := programAttempt_keeps_ones old new cleared i
    rwa [h1, BitVec.and_comm] at ones

/-! ### The pages of a record entry's steps -/

section Record

variable {s : State} {p : Port} {r : RecNo} {c : Condition} {g : Gen} {st : EngineStep} {x : PageBytes}

/-- A record entry's step, with its plane and page (R68, R70). -/
theorem record_step (hi : DirectoryInv s) (hp : PlacesOk s) (he : s.engine.entry = some ⟨p, .record r c g⟩)
    (hs : s.engine.step = some st) :
    1 ≤ st.k ∧ st.k ≤ st.m ∧ s.engine.target = some (stepPlane s st) ∧
      (st.phase = .erase ∧ stepPage s st = s.engine.basePage + (st.k - 1) ∨
       st.phase = .program ∧ stepPage s st = (if st.k = st.m then s.engine.basePage else s.engine.basePage + st.k) ∨
       st.phase = .invalidate ∧ stepPage s st = s.engine.basePage) := by
  obtain ⟨le, -, -, -, ht, -⟩ := hi.recordLink he
  obtain ⟨h1, h2, h3⟩ := stepOk_record (stepOk_of hp he hs)
  have ha := areaBase_record he
  refine ⟨h1, h2, ?_, ?_⟩
  · rcases h3 with ⟨h3 | h3, -⟩ | h3 <;> simp only [stepPlane, h3, ht, Option.getD_some]
  · rcases h3 with ⟨h3 | h3, -⟩ | h3
    · exact .inl ⟨h3, by simp only [stepPage, h3, ha]⟩
    · exact .inr (.inl ⟨h3, by simp only [stepPage, h3, ha]⟩)
    · exact .inr (.inr ⟨h3, by simp only [stepPage, h3, ha]⟩)

/-- A page of the step's plane after the attempt. -/
theorem PageStep.readPage_after {e : Entry} (h : PageStep s e st x) (ha : ArrayOk s) (page : Nat) :
    readPage (writePage s.array (stepPlane s st) (stepPage s st) x) (stepPlane s st) page =
      if stepPage s st = page then x else readPage s.array (stepPlane s st) page := by
  split
  · subst_vars
    exact readPage_writePage _ _ _ _ h.page ha
  · exact readPage_writePage_ne _ _ _ (Ne.symm ‹_›)

theorem Attempted.program_eq (h : Attempted s st x) (hp : st.phase = .program) :
    ∃ cleared, x = programAttempt (stepOld s st) (stepContent s st) cleared := by
  cases h with
  | erase raised h => simp [hp, phaseState] at h
  | program cleared h => exact ⟨cleared, rfl⟩
  | invalidate cleared h => simp [hp] at h

/-- A record entry's header page after an attempt of its last step that failed. -/
theorem record_header_fails (hi : DirectoryInv s) (hp : PlacesOk s) (hb : BufferOk s)
    (a : PageStep s ⟨p, .record r c g⟩ st x)
    (hh : RecordHeader (entryImage s) st (readPage s.array (stepPlane s st) s.engine.basePage))
    (hph : st.phase = .program) (hk : st.k = st.m) (hx : x ≠ stepContent s st) : RecordHeader (entryImage s) st x := by
  obtain ⟨-, -, -, hpage⟩ := record_step hi hp a.entry a.step
  obtain ⟨data, himage⟩ := entryImage_record hb a.entry
  obtain ⟨cleared, rfl⟩ := a.left.program_eq hph
  have page : stepPage s st = s.engine.basePage := by
    rcases hpage with ⟨h, -⟩ | ⟨-, h⟩ | ⟨h, -⟩
    · simp [hph] at h
    · rw [h, if_pos hk]
    · simp [hph] at h
  have content : stepContent s st = imagePage (entryImage s) 0 := by rw [stepContent, if_pos hk]
  obtain ⟨h0, h1⟩ := hh.2 hph hk
  rw [content] at hx ⊢
  rw [stepOld, page] at hx ⊢
  refine ⟨fun h => ?_, fun _ _ => programAttempt_header_fails h0 h1 (by rw [himage, recordImage_marker]) hx⟩
  rcases h with ⟨h, -⟩ | ⟨-, h⟩ | h
  · simp [hph] at h
  · omega
  · simp [hph] at h

theorem nextStep_last {st : EngineStep} (h : st.phase = .invalidate ∨ st.phase = .program ∧ st.k = st.m) :
    nextStep st = none := by
  obtain ⟨ph, k, m⟩ := st
  rcases h with h | ⟨h, hk⟩
  · obtain rfl : ph = .invalidate := h
    simp [nextStep]
  · obtain rfl : ph = .program := h
    obtain rfl : k = m := hk
    simp [nextStep]

/-- A record entry's header page at the next step. -/
theorem recordHeader_moves (hi : DirectoryInv s) (hp : PlacesOk s) (ha : ArrayOk s) (hb : BufferOk s)
    (a : PageStep s ⟨p, .record r c g⟩ st x)
    (hh : RecordHeader (entryImage s) st (readPage s.array (stepPlane s st) s.engine.basePage)) {st' : EngineStep}
    (m : Moves s ⟨p, .record r c g⟩ st x st') :
    RecordHeader (entryImage s) st'
      (readPage (writePage s.array (stepPlane s st) (stepPage s st) x) (stepPlane s st) s.engine.basePage) := by
  obtain ⟨h1, h2, -, hpage⟩ := record_step hi hp a.entry a.step
  rw [a.readPage_after ha]
  cases m with
  | advances hx hn =>
    rcases hpage with ⟨hph, hpage⟩ | ⟨hph, hpage⟩ | ⟨hph, -⟩
    · split
      · obtain rfl : x = erasedPage := by
          rcases hx with ⟨-, hx⟩ | ⟨hx, -⟩
          · exact hx
          · simp [hph] at hx
        exact recordHeader_erased _ _
      · rw [hh.1 (.inl ⟨hph, by omega⟩)]
        exact recordHeader_erased _ _
    · have hk : st.k ≠ st.m := fun hk => by simp [nextStep_last (.inr ⟨hph, hk⟩)] at hn
      rw [if_neg (by rw [hpage, if_neg hk]; omega), hh.1 (.inr (.inl ⟨hph, by omega⟩))]
      exact recordHeader_erased _ _
    · simp [nextStep_last (.inl hph)] at hn
  | again hx hinv hs =>
    subst hs
    rcases hpage with ⟨hph, hpage⟩ | ⟨hph, hpage⟩ | ⟨hph, -⟩
    · split
      · refine ⟨fun h => ?_, fun h => by simp [hph] at h⟩
        rcases h with ⟨-, h⟩ | ⟨h, -⟩ | h
        · omega
        · simp [hph] at h
        · simp [hph] at h
      · exact hh
    · by_cases hk : st'.k = st'.m
      · rw [if_pos (by rw [hpage, if_pos hk])]
        exact record_header_fails hi hp hb a hh hph hk fun hc => hx (.inr ⟨hph, hc⟩)
      · rw [if_neg (by rw [hpage, if_neg hk]; omega)]
        exact hh
    · exact absurd hph hinv
  | retreats _ hx hph hs =>
    have other : stepPage s st ≠ s.engine.basePage ∧
        readPage s.array (stepPlane s st) s.engine.basePage = erasedPage := by
      rcases hpage with ⟨hph', hpage⟩ | ⟨hph', hpage⟩ | ⟨hph', -⟩
      · have hk : st.k ≠ 1 := by simpa [hph'] using hph
        exact ⟨by omega, hh.1 (.inl ⟨hph', by omega⟩)⟩
      · have hk : st.k ≠ st.m := by simpa [hph'] using hph
        exact ⟨by rw [hpage, if_neg hk]; omega, hh.1 (.inr (.inl ⟨hph', by omega⟩))⟩
      · simp [hph'] at hph
    rw [if_neg other.1, other.2]
    exact recordHeader_erased _ _

end Record

/-! ### The pages of a DEFINE's steps -/

/-- The step after one of a DEFINE's (R135). -/
theorem nextStep_define {st st' : EngineStep} (h : nextStep st = some st') :
    (∀ pl, st.phase = .extentErase pl → st'.phase = .extentErase pl ∨
      pl = .p0 ∧ st'.phase = .extentErase .p1 ∧ st'.k = 1 ∨ pl = .p1 ∧ st'.phase = .erase) ∧
    (st.phase = .erase ∨ st.phase = .program → st'.phase = .erase ∨ st'.phase = .program) := by
  obtain ⟨ph, k, m⟩ := st
  unfold nextStep at h
  split at h
  · obtain rfl := Option.some.inj h
    exact ⟨fun _ => .inl, id⟩
  · cases ph with
    | extentErase pl =>
      refine ⟨fun pl' hpl => ?_, by simp⟩
      obtain rfl := Phase.extentErase.inj hpl
      cases pl <;> obtain rfl := Option.some.inj h
      · exact .inr (.inl ⟨rfl, rfl, rfl⟩)
      · exact .inr (.inr ⟨rfl, rfl⟩)
    | erase =>
      obtain rfl := Option.some.inj h
      exact ⟨by simp, fun _ => .inr rfl⟩
    | formatFirst | formatSecond | invalidate => exact ⟨by simp, by simp⟩
    | program => simp at h

section Define

variable {s : State} {p : Port} {r : RecNo} {le : LayoutEntry} {st : EngineStep} {x : PageBytes}

/-- A DEFINE's step: in its extent in one plane, or in the layout area (R135). -/
theorem define_step (hi : DirectoryInv s) (hp : PlacesOk s) (he : s.engine.entry = some ⟨p, .layout (.define r le)⟩)
    (hs : s.engine.step = some st) : 1 ≤ st.k ∧ (
      (st.phase = .extentErase (stepPlane s st) ∧ stepPage s st = le.basePage + (st.k - 1)) ∨
      (st.phase = .erase ∨ st.phase = .program) ∧ stepPage s st < le.basePage) := by
  obtain ⟨-, hplace, -, hb, -⟩ := hi.defineLink he
  obtain ⟨-, -, lo, -⟩ := (placementOk_iff _ _).mp hplace
  obtain ⟨h1, -, ⟨r', e', pl, hop, hph, -⟩ | ⟨hph, -⟩⟩ := stepOk_layout (stepOk_of hp he hs)
  · refine ⟨h1, .inl ⟨by simp only [stepPlane, hph], by simp only [stepPage, hph, hb]⟩⟩
  · have phase : st.phase = .erase ∨ st.phase = .program := by
      rcases hph with ⟨hf, -⟩ | ⟨-, hph⟩ | hph
      · simp at hf
      · exact .inl hph
      · exact .inr hph
    refine ⟨h1, .inr ⟨phase, ?_⟩⟩
    cases step_site hi hp he hs with
    | define hph' => obtain ⟨pl, hpl⟩ := hph'; simp [hpl] at phase
    | layout _ hh => omega

/-- A header page of a DEFINE's extent after an attempt: the page of the step, where that is it, or as it was. -/
theorem define_page (hi : DirectoryInv s) (hp : PlacesOk s) (ha : ArrayOk s)
    (a : PageStep s ⟨p, .layout (.define r le)⟩ st x) (pl : Plane) :
    readPage (writePage s.array (stepPlane s st) (stepPage s st) x) pl le.basePage =
      if st.phase = .extentErase pl ∧ st.k = 1 then x else readPage s.array pl le.basePage := by
  obtain ⟨-, hplace, -⟩ := hi.defineLink a.entry
  obtain ⟨-, -, -, hb⟩ := (placementOk_iff _ _).mp hplace
  have hn := extentPages_pos le.length
  obtain ⟨h1, ⟨hph, hpage⟩ | ⟨hph, hpage⟩⟩ := define_step hi hp a.entry a.step
  · by_cases hpl : stepPlane s st = pl
    · subst hpl
      rw [a.readPage_after ha]
      by_cases hk : st.k = 1
      · rw [if_pos (by omega), if_pos ⟨hph, hk⟩]
      · rw [if_neg (by omega), if_neg fun h => hk h.2]
    · rw [if_neg fun h => hpl (Phase.extentErase.inj (hph.symm.trans h.1))]
      exact readPage_writePage_plane _ _ a.page (by omega) hpl
  · rw [if_neg fun h => by simp [h.1] at hph]
    by_cases hpl : stepPlane s st = pl
    · subst hpl
      rw [a.readPage_after ha, if_neg (by omega)]
    · exact readPage_writePage_plane _ _ a.page (by omega) hpl

/-- The header pages of a DEFINE's extent at the next step. -/
theorem defineHeaders_moves (hi : DirectoryInv s) (hp : PlacesOk s) (ha : ArrayOk s)
    (a : PageStep s ⟨p, .layout (.define r le)⟩ st x)
    (hh : DefineHeaders st (readPage s.array .p0 le.basePage) (readPage s.array .p1 le.basePage)) {st' : EngineStep}
    (m : Moves s ⟨p, .layout (.define r le)⟩ st x st') :
    DefineHeaders st'
      (readPage (writePage s.array (stepPlane s st) (stepPage s st) x) .p0 le.basePage)
      (readPage (writePage s.array (stepPlane s st) (stepPage s st) x) .p1 le.basePage) := by
  rw [define_page hi hp ha a, define_page hi hp ha a]
  obtain ⟨hh0, hh1⟩ := hh
  obtain ⟨h1, hstep⟩ := define_step hi hp a.entry a.step
  cases m with
  | advances hx hn =>
    obtain ⟨next, nextArea⟩ := nextStep_define hn
    rcases hstep with ⟨hph, -⟩ | ⟨hph, -⟩
    · have erased : ∀ pl, st.phase = .extentErase pl → (2 ≤ st.k → readPage s.array pl le.basePage = erasedPage) →
          (if st.phase = .extentErase pl ∧ st.k = 1 then x else readPage s.array pl le.basePage) = erasedPage := by
        intro pl hpl hold
        split
        · rcases hx with ⟨-, hx⟩ | ⟨hx, -⟩
          · exact hx
          · simp [hpl] at hx
        · rename_i hk
          exact hold (by have : st.k ≠ 1 := fun h => hk ⟨hpl, h⟩; omega)
      cases hpl : stepPlane s st with
      | p0 =>
        rw [hpl] at hph
        refine ⟨fun _ => erased .p0 hph fun hk => hh0 (.inr hk), fun h => ?_⟩
        rcases next _ hph with hn' | ⟨-, hn', hk⟩ | ⟨hn', -⟩
        · simp [hn'] at h
        · simp [hn', hk] at h
        · simp at hn'
      | p1 =>
        rw [hpl] at hph
        refine ⟨fun _ => ?_, fun _ => erased .p1 hph fun hk => hh1 (.inr (.inr ⟨hph, hk⟩))⟩
        rw [if_neg (by simp [hph])]
        exact hh0 (.inl (by simp [hph]))
    · have keep : ∀ pl, ¬(st.phase = .extentErase pl ∧ st.k = 1) := fun pl h => by simp [h.1] at hph
      rw [if_neg (keep _), if_neg (keep _)]
      refine ⟨fun _ => hh0 (.inl fun h => by simp [h] at hph), fun _ => hh1 ?_⟩
      rcases hph with hph | hph
      · exact .inl hph
      · exact .inr (.inl hph)
  | again hx hinv hs =>
    subst hs
    refine ⟨fun h => ?_, fun h => ?_⟩
    · rw [if_neg fun hk => by rcases h with h | h; exacts [h hk.1, by omega]]
      exact hh0 h
    · rw [if_neg fun hk => by rcases h with h | h | h; exacts [by simp [h] at hk, by simp [h] at hk, by omega]]
      exact hh1 h
  | retreats he => simp at he

end Define

/-! ### Every command keeps them -/

theorem HeaderOk.goesOn {s t : State} (h : HeaderOk s) (hi : DirectoryInv s) (hp : PlacesOk s) (ha : ArrayOk s)
    (hb : BufferOk s) {e : Entry} {st st' : EngineStep} {x : PageBytes} (g : GoesOn s e st x st' t) : HeaderOk t := by
  obtain ⟨hr, hd⟩ := (headerOk_iff s).mp h
  refine (headerOk_iff t).mpr ⟨fun p r c gen st'' pl he hst ht => ?_, fun p r le st'' he hst => ?_⟩ <;>
    rw [g.work.entry] at he <;> obtain rfl := Option.some.inj (g.page.entry.symm.trans he) <;>
    obtain rfl := Option.some.inj (g.step.symm.trans hst)
  · rw [g.work.target] at ht
    obtain ⟨-, -, htarget, -⟩ := record_step hi hp g.page.entry g.page.step
    obtain rfl := Option.some.inj (htarget.symm.trans ht)
    rw [entryImage_congr g.work, g.work.basePage, g.array]
    exact recordHeader_moves hi hp ha hb g.page (hr p r c gen st _ g.page.entry g.page.step ht) g.moves
  · rw [g.array]
    exact defineHeaders_moves hi hp ha g.page (hd p r le st g.page.entry g.page.step) g.moves

theorem HeaderOk.started {s t : State} {e : Entry} (he : Started s e t.engine) : HeaderOk t := by
  refine (headerOk_iff t).mpr ⟨fun p r c g st pl _ hst _ => ?_, fun p r le st hE hst => ?_⟩
  · obtain ⟨h1, h2, h3⟩ := started_not_program he hst
    refine ⟨fun h => ?_, fun h => absurd h h1⟩
    rcases h with ⟨-, h⟩ | ⟨h, -⟩ | h
    · omega
    · exact absurd h h1
    · exact absurd h h2
  · generalize t.engine = E at he hE hst
    cases he with
    | failed => simp [Engine.reset] at hE
    | record hw hx =>
      simp only [recordEngine, Option.some.injEq] at hE
      simp [hE] at hw
    | layout hw hc =>
      simp only [layoutEngine, Option.some.injEq] at hE hst
      rw [hE] at hw
      obtain rfl := Work.layout.inj hw
      subst hst
      simp [DefineHeaders, firstLayoutStep]

theorem HeaderOk.of_effect {s t : State} (h : HeaderOk s) (hi : DirectoryInv s) (hp : PlacesOk s) (ha : ArrayOk s)
    (hb : BufferOk s) (x : EngineEffect s t) : HeaderOk t := by
  cases x with
  | quiet q =>
    rw [headerOk_iff] at h ⊢
    simp only [q.work.entry, q.step, q.work.target, q.array, q.work.basePage, entryImage_congr q.work]
    exact h
  | started hs he _ => exact HeaderOk.started he
  | goesOn g => exact h.goesOn hi hp ha hb g
  | idle he => exact (headerOk_iff t).mpr ⟨by simp [he], by simp [he]⟩

end Sys2Proof.Machine

namespace Sys2Proof.Machine

open Sys2Proof

/-! ## What a command does to the directory and to the array -/

/-- The engine's last step has passed: its entry's image is whole (R68, R71, R135, R137). -/
structure LastStep (s : State) (e : Entry) (st : EngineStep) : Prop where
  page : PageStep s e st (stepContent s st)
  phase : st.phase = .program
  last : st.k = st.m

/-- The directory agrees, with the array as it was or a page written by an attempt that completes nothing; or a
completion, a reset, or mount. -/
inductive DirEffect (s t : State) : Prop
  | same (h : SameDir s t) (ha : t.array = s.array)
  | written {e st x} (h : SameDir s t) (a : PageStep s e st x)
      (ha : t.array = writePage s.array (stepPlane s st) (stepPage s st) x)
      (hx : ¬(st.phase = .program ∧ st.k = st.m ∧ x = stepContent s st))
  | record {p r c g st} (a : LastStep s ⟨p, .record r c g⟩ st)
      (hd : RecordDone (stepLeft s st (stepContent s st)) r (targetCopy (slotOf s r).content.current)
        (successor (slotOf s r).content.generation) t)
  | layout {p op st} (a : LastStep s ⟨p, .layout op⟩ st)
      (hd : LayoutDone (stepLeft s st (stepContent s st)) op (layoutTarget s op).1 (layoutTarget s op).2 t)
  | reset (hs : ∀ r, slotOf t r = Slot.undefined) (hl : t.dir.layout = none)
  | mounted {v entries} (hm : s.mount = .layout)
      (hs : selectLayout (classifyLayout (readLayout s .p0)) (classifyLayout (readLayout s .p1)) = .ready v entries)
      (tail : MountTail (mounted s v entries) t)
  | slotMounted {r0 r e} (hm : s.mount = .records r0) (he : (slotOf s r).entry = some e)
      (tail : MountTail (slotMounted s r e) t)

theorem lastStep_of {s : State} (hp : PlacesOk s) {e : Entry} {st : EngineStep}
    (a : PageStep s e st (stepContent s st)) (hph : st.phase = .program) (hn : nextStep st = none) : LastStep s e st := by
  obtain ⟨-, hk, -⟩ := stepOk_of hp a.entry a.step
  refine ⟨a, hph, by_contra fun hne => ?_⟩
  have : st.k < st.m ∧ st.phase ≠ .invalidate := ⟨by omega, by simp [hph]⟩
  simp [nextStep, this] at hn

/-- The completion of an entry at its last step. -/
theorem completes_dir {s : State} (hi : DirectoryInv s) {e : Entry} {st : EngineStep} (a : LastStep s e st) :
    DirEffect s (completeEntry e (stepLeft s st (stepContent s st))) := by
  have kept := a.page.kept hi
  rcases completeEntry_done kept.1 kept.2 with ⟨p, r, c, g, rfl, hd⟩ | ⟨p, op, rfl, hd⟩
  · rw [leavePage_slot] at hd
    exact .record a hd
  · rw [layoutTarget_congr (leavePage_steady _ _ _ _).dir.layout] at hd
    exact .layout a hd

theorem Effect.dir {s t : State} {i : Instr} (x : Effect s i t) (hi : DirectoryInv s) (hp : PlacesOk s) :
    DirEffect s t := by
  have failed : ∀ {st x}, ¬Passes s st x → ¬(st.phase = .program ∧ st.k = st.m ∧ x = stepContent s st) :=
    fun hx h => hx (.inr ⟨h.1, h.2.2⟩)
  have left := fun st x => (leavePage_steady (stepPlane s st) (stepPage s st) x s).dir
  cases x with
  | quiet q => exact .same q.steady.dir q.array
  | reset src cut => exact .reset slotOf_reset rfl
  | start hq ha => exact .same (start_steady hq).dir (startEntry_array _ _)
  | advances a hx hn =>
    refine .written ((left _ _).trans (askStep_steady _ _ _).dir) a (by rw [askStep_array, leavePage_array]) fun h => ?_
    simp [nextStep_last (.inr ⟨h.1, h.2.1⟩)] at hn
  | completes a hph hx hn =>
    subst hx
    exact completes_dir hi (lastStep_of hp a hph hn)
  | again n a hx hk =>
    exact .written ((left _ _).trans (askStep_steady _ _ _).dir) a (by rw [askStep_array, leavePage_array]) (failed hx)
  | retreats a hx hk =>
    exact .written ((left _ _).trans (askStep_steady _ _ _).dir) a (by rw [askStep_array, leavePage_array]) (failed hx)
  | fails a hx =>
    exact .written ((left _ _).trans (failFault_steady _ _).dir) a (by rw [failFault_array, leavePage_array]) (failed hx)
  | mountStarts hd hm ht h => exact .same (.of_eq (h.dir rfl)) (h.array rfl)
  | mountEmpty d hm hd => exact .same (.of_eq ((endMount_only d s).dir rfl)) ((endMount_only d s).array rfl)
  | mountLayout hm hs tail => exact .mounted hm hs tail
  | mountSlot hm he tail => exact .slotMounted hm he tail
  | mountDone hm tail => exact .same (.of_eq tail.dir) tail.array

theorem LastStep.target {s : State} {e : Entry} {st : EngineStep} (a : LastStep s e st) :
    stepPlane s st = s.engine.target.getD .p0 := stepPlane_program a.phase

/-- At the last step the area holds the whole image (R68, R135). -/
theorem LastStep.image {s : State} (ha : ArrayOk s) (hr : ProgressOk s) {e : Entry} {st : EngineStep}
    (a : LastStep s e st) (hl : (entryImage s).length = 32 * st.m) :
    readExtent (stepLeft s st (stepContent s st)).array (s.engine.target.getD .p0) (areaBase s) st.m = entryImage s := by
  rw [leavePage_array]
  refine readExtent_of_pages hl fun j hj => ?_
  cases j with
  | zero =>
    have page : stepPage s st = areaBase s := by rw [stepPage_program a.phase, if_pos a.last]
    rw [Nat.add_zero, ← page, a.target, readPage_writePage _ _ _ _ a.page.page ha, stepContent, if_pos a.last]
  | succ j => exact program_pages ha hr a.page a.phase (by omega) (.inl (by rw [a.last]; exact hj))

/-! ## R4: the current copy is VALID -/

/-- A commit that completes leaves a VALID image of the new generation in its target copy (R71). -/
theorem LastStep.record_image {s : State} (ha : ArrayOk s) (hi : DirectoryInv s) (hp : PlacesOk s) (hb : BufferOk s)
    (hr : ProgressOk s) {p : Port} {r : RecNo} {c : Condition} {g : Gen} {st : EngineStep}
    (a : LastStep s ⟨p, .record r c g⟩ st) {e : LayoutEntry} (he : (slotOf s r).entry = some e) :
    classifyRecord r e.length (targetCopy (slotOf s r).content.current)
      (readExtent (stepLeft s st (stepContent s st)).array (targetCopy (slotOf s r).content.current) e.basePage
        (extentPages e.length)) = .valid (successor (slotOf s r).content.generation) := by
  obtain ⟨le, hle, hbase, hlen, ht, hg⟩ := hi.recordLink a.page.entry
  obtain rfl := Option.some.inj (hle.symm.trans he)
  obtain ⟨-, hn, -, -⟩ := (placementOk_iff _ _).mp (hi.place he)
  obtain ⟨data, himage⟩ := entryImage_record hb a.page.entry
  have hm : st.m = extentPages le.length := by
    obtain ⟨-, -, ⟨-, hm⟩ | hph⟩ := stepOk_record (stepOk_of hp a.page.entry a.page.step)
    · rw [hm, hlen]
    · simp [a.phase] at hph
  have image := a.image ha hr (by rw [himage, recordImage_length, hlen, hm])
  rw [himage, areaBase_record a.page.entry, hbase, hlen, ht, hg, hm, Option.getD_some] at image
  rw [image]
  exact classifyRecord_recordImage _ _ _ _ _ (by rw [data.size]; exact hn) (successor_ne_zero _)

/-- R4's first guarantee is kept by every command. -/
theorem ImagesOk.of_effect {s t : State} {i : Instr} (h : ImagesOk s) (ha : ArrayOk s) (hi : DirectoryInv s)
    (hp : PlacesOk s) (hb : BufferOk s) (hr : ProgressOk s) (x : Effect s i t) : ImagesOk t := by
  intro r e c g he hc
  have keep : ∀ {e₀ : LayoutEntry}, (slotOf s r).entry = some e₀ → e.length = e₀.length → e.basePage = e₀.basePage →
      (slotOf s r).content = .valid c g →
      classifyRecord r e.length c (readExtent t.array c e.basePage (extentPages e.length)) = .valid g := by
    intro e₀ he₀ hl hbase hc₀
    rw [hl, hbase, x.array.current hi hp he₀ hc₀]
    exact h r e₀ c g he₀ hc₀
  have keepSame : SameDir s t →
      classifyRecord r e.length c (readExtent t.array c e.basePage (extentPages e.length)) = .valid g := fun hd =>
    keep ((hd.entry r).symm.trans he) rfl rfl ((hd.content r).symm.trans hc)
  cases x.dir hi hp with
  | same hd _ => exact keepSame hd
  | written hd _ _ _ => exact keepSame hd
  | record a hd =>
    rename_i p r' c' g' st
    by_cases hq : r = r'
    · subst hq
      rw [hd.slot] at he hc
      obtain ⟨rfl, rfl⟩ := Content.valid.inj hc
      rw [hd.array]
      exact a.record_image ha hi hp hb hr (by rwa [leavePage_slot] at he)
    · rw [hd.others r hq, leavePage_slot] at he hc
      exact keep he rfl rfl hc
  | layout a hd =>
    have slot := hd.slot r
    rw [leavePage_slot] at slot
    cases slot with
    | undefined hy => simp [hy, Slot.undefined] at he
    | defined e' hop hy hc' => simp [hc'] at hc
    | kept e₀ e' hx hy hl hbase hc' =>
      obtain rfl := Option.some.inj (hy.symm.trans he)
      exact keep hx hl hbase (hc'.symm.trans hc)
  | reset hs hl => simp [hs, Slot.undefined] at he
  | mounted hm hs tail =>
    rename_i v entries
    have slot : slotOf t r = slotOf (mounted s v entries) r := by simp only [slotOf, tail.dir]
    simp [slot, slotOf_mounted, Slot.undefined] at hc
  | slotMounted hm he' tail =>
    rename_i r0 r' e'
    have slot : slotOf t r = slotOf (slotMounted s r' e') r := by simp only [slotOf, tail.dir]
    rw [slot, slotOf_setSlot] at he hc
    split at he
    · subst_vars
      rw [if_pos rfl] at hc
      obtain rfl := Option.some.inj (he'.symm.trans he)
      rw [tail.array]
      exact mountContent_valid hc
    · rename_i hq
      rw [if_neg hq] at hc
      exact keep he rfl rfl hc

/-! ## R4: the copy that is not current -/

theorem classWith_congr {s t : State} {r : RecNo} {e e' : LayoutEntry} {pl : Plane} {b : Byte} (hl : e'.length = e.length)
    (h : readExtent t.array pl e'.basePage (extentPages e'.length) = readExtent s.array pl e.basePage (extentPages e.length)) :
    classWith t r e' pl b = classWith s r e pl b := by
  rw [classWith, classWith, h, hl]

theorem byte0_readExtent (m : Mem) (pl : Plane) (b n : Nat) :
    memRead m (pageAddress pl b) = byteAt (readExtent m pl b (extentPages n)) 0 := by
  have := extentPages_pos n
  rw [byteAt_readExtent _ _ _ _ _ (by omega), Nat.add_zero]

/-- A copy classed VALID has the marker in byte 0 and its record's number in byte 1 (R25, R29). -/
theorem classWith_valid {s : State} {r : RecNo} {e : LayoutEntry} {pl : Plane} {b : Byte} {g : Gen}
    (h : classWith s r e pl b = .valid g) :
    b = 0x3C ∧ (readPage s.array pl e.basePage).get 1 = recByte r := by
  have hn := extentPages_pos e.length
  obtain ⟨h0, h1, -⟩ := classifyRecord_valid h
  refine ⟨h0, ?_⟩
  have tail : byteAt (b :: (readExtent s.array pl e.basePage (extentPages e.length)).drop 1) 1 =
      byteAt (readExtent s.array pl e.basePage (extentPages e.length)) 1 := by
    simp [byteAt]
  rw [tail, byteAt_readExtent _ _ _ _ _ (by omega)] at h1
  rw [readPage_get]
  exact h1

/-- No raising of bits makes the marker of a byte that has a bit besides the marker's. -/
theorem raised_ne_marker {h b : Byte} (h0 : h ≠ 0x3C) (h1 : h &&& 0x3C = 0x3C) (hb : b ||| h = b) : b ≠ 0x3C := by
  have key : ∀ h : Byte, h ≠ 0x3C → h &&& 0x3C = 0x3C → 0x3C ||| h ≠ 0x3C := by decide
  intro hm
  subst hm
  exact key h h0 h1 hb

theorem recByte_ne_blank (r : RecNo) : 0xFF ≠ recByte r := by
  intro h
  have value := recByte_toNat r
  rw [← h] at value
  have blank : (0xFF : Byte).toNat = 255 := rfl
  have := r.isLt
  omega

/-- An erased header page is no VALID copy's. -/
theorem not_valid_of_erased {s : State} {r : RecNo} {e : LayoutEntry} {pl : Plane} {b : Byte} {g : Gen}
    (h : readPage s.array pl e.basePage = erasedPage) : classWith s r e pl b ≠ .valid g := by
  intro hv
  have h1 := (classWith_valid hv).2
  rw [h, erasedPage_get] at h1
  exact recByte_ne_blank r h1

/-- Where a page changes in byte 0 alone, so does the extent that begins with it. -/
theorem readExtent_drop_of_byte0 {m : Mem} {pl : Plane} {page n : Nat} {x : PageBytes} (hm : memWf m = true)
    (hp : page < Config.planePages) (h : ∀ i, i ≠ 0 → x.get i = (readPage m pl page).get i) :
    (readExtent (writePage m pl page x) pl page n).drop 1 = (readExtent m pl page n).drop 1 := by
  have bytes : ∀ i, 1 ≤ i → memRead (writePage m pl page x) (pageAddress pl page + i) = memRead m (pageAddress pl page + i) := by
    intro i hi
    by_cases hlt : i < 32
    · have written := readPage_get (writePage m pl page x) pl page ⟨i, hlt⟩
      rw [readPage_writePage _ _ _ _ hp hm, h _ (by simp only [ne_eq, Fin.ext_iff, Fin.val_zero]; omega), readPage_get] at written
      exact written.symm
    · exact memRead_writePage_outside _ _ _ _ _ (.inr (by omega))
  apply List.ext_getElem
  · simp [readExtent, memReadBytes]
  · intro i h1 h2
    simp only [readExtent, memReadBytes, List.getElem_drop, List.getElem_map, List.getElem_range]
    exact bytes _ (by omega)

/-- A raising of bits of a byte raises those of every byte with fewer. -/
theorem or_eq_of_le {a b c : Byte} (h : c ||| a = c) (hb : b ||| c = b) : b ||| a = b := by
  rw [← hb, BitVec.or_assoc, h]

/-- An erase attempt on a page changes byte 0 alone, by raising bits, or leaves it 0xFF (R20). -/
theorem eraseAttempt_cases (old raised : PageBytes) :
    (eraseAttempt old raised).get 0 = 0xFF ∨
      ((eraseAttempt old raised).get 0 ||| old.get 0 = (eraseAttempt old raised).get 0 ∧
        ∀ i, i ≠ 0 → (eraseAttempt old raised).get i = old.get i) := by
  by_cases h : (eraseAttempt old raised).get 0 = 0xFF
  · exact .inl h
  · exact .inr ⟨eraseAttempt_keeps old raised 0, eraseAttempt_byte0_first old raised h⟩

/-- The page that an invalidation leaves on an erased page is no header of a VALID copy (R70). -/
theorem invalidation_byte1 (cleared : PageBytes) : (programAttempt erasedPage invalidationContent cleared).get 1 = 0xFF := by
  have ones := programAttempt_keeps_ones erasedPage invalidationContent cleared 1
  have new : invalidationContent.get 1 = 0xFF := by
    rw [invalidationContent, Table.get_set_ne _ _ _ _ (by decide), erasedPage_get]
  rw [erasedPage_get, new] at ones
  have key : ∀ b : Byte, 0xFF &&& 0xFF &&& b = 0xFF &&& 0xFF → b = 0xFF := by decide
  exact key _ ones

theorem Attempted.erase_eq {s : State} {st : EngineStep} {x : PageBytes} (h : Attempted s st x) (hp : st.phase = .erase) :
    ∃ raised, x = eraseAttempt (stepOld s st) raised := by
  cases h with
  | erase raised h => exact ⟨raised, rfl⟩
  | program cleared h => simp [hp] at h
  | invalidate cleared h => simp [hp] at h

theorem Attempted.invalidate_eq {s : State} {st : EngineStep} {x : PageBytes} (h : Attempted s st x)
    (hp : st.phase = .invalidate) : ∃ cleared, x = programAttempt (stepOld s st) invalidationContent cleared := by
  cases h with
  | erase raised h => simp [hp, phaseState] at h
  | program cleared h => simp [hp] at h
  | invalidate cleared h => exact ⟨cleared, rfl⟩

/-- An attempt of a record entry on its target copy: the copy is not VALID afterwards, with whatever bits of byte 0
raised, or it was so already with the same bits raised (R20, R21, R70). -/
theorem target_not_valid {s t : State} (ha : ArrayOk s) (hi : DirectoryInv s) (hp : PlacesOk s) (hb : BufferOk s)
    (hh : HeaderOk s) {p : Port} {r : RecNo} {c : Condition} {gen : Gen} {st : EngineStep} {x : PageBytes}
    (a : PageStep s ⟨p, .record r c gen⟩ st x) (hx : ¬(st.phase = .program ∧ st.k = st.m ∧ x = stepContent s st))
    (ht : t.array = writePage s.array (stepPlane s st) (stepPage s st) x) {e : LayoutEntry}
    (he : (slotOf s r).entry = some e) {b : Byte} {g : Gen}
    (hbits : b ||| memRead t.array (pageAddress (stepPlane s st) e.basePage) = b)
    (hv : classWith t r e (stepPlane s st) b = .valid g) :
    b ||| memRead s.array (pageAddress (stepPlane s st) e.basePage) = b ∧ classWith s r e (stepPlane s st) b = .valid g := by
  obtain ⟨le, hle, hbase, -⟩ := hi.recordLink a.entry
  obtain rfl := Option.some.inj (hle.symm.trans he)
  obtain ⟨h1, h2, htarget, hpage⟩ := record_step hi hp a.entry a.step
  have header := ((headerOk_iff s).mp hh).1 p r c gen st _ a.entry a.step htarget
  rw [hbase] at header hpage
  have after := a.readPage_after ha le.basePage
  rw [← ht] at after
  have byte0 : ∀ u : State, memRead u.array (pageAddress (stepPlane s st) le.basePage) =
      (readPage u.array (stepPlane s st) le.basePage).get 0 := fun u => by rw [readPage_get, Fin.val_zero, Nat.add_zero]
  have still : stepPage s st ≠ le.basePage → readPage s.array (stepPlane s st) le.basePage = erasedPage → False :=
    fun hne herased => not_valid_of_erased (by rw [after, if_neg hne, herased]) hv
  rcases hpage with ⟨hph, hpage⟩ | ⟨hph, hpage⟩ | ⟨hph, hpage⟩
  · by_cases hk : st.k = 1
    · have page : stepPage s st = le.basePage := by omega
      rw [if_pos page] at after
      rw [byte0, after] at hbits
      obtain ⟨raised, rfl⟩ := a.left.erase_eq hph
      rcases eraseAttempt_cases (stepOld s st) raised with hff | ⟨hraised, hrest⟩
      · exact absurd (classWith_valid hv).1 (raised_ne_marker (by rw [hff]; decide) (by rw [hff]; decide) hbits)
      · have old : stepOld s st = readPage s.array (stepPlane s st) le.basePage := by rw [stepOld, page]
        refine ⟨by rw [byte0, ← old]; exact or_eq_of_le hraised hbits, ?_⟩
        have tail := readExtent_drop_of_byte0 (n := extentPages le.length) ha a.page hrest
        rw [page, ← page, ← ht, page] at tail
        rw [← hv, classWith, classWith, tail]
    · exact (still (by omega) (header.1 (.inl ⟨hph, by omega⟩))).elim
  · by_cases hk : st.k = st.m
    · have page : stepPage s st = le.basePage := by rw [hpage, if_pos hk]
      have failed := record_header_fails hi hp hb a (by rw [hbase]; exact header) hph hk fun hc => hx ⟨hph, hk, hc⟩
      obtain ⟨h0, hand⟩ := failed.2 hph hk
      obtain ⟨data, himage⟩ := entryImage_record hb a.entry
      have h0' := hand 0
      rw [himage, recordImage_marker] at h0'
      rw [byte0, after, if_pos page] at hbits
      exact absurd (classWith_valid hv).1 (raised_ne_marker h0 h0' hbits)
    · exact (still (by rw [hpage, if_neg hk]; omega) (header.1 (.inr (.inl ⟨hph, by omega⟩)))).elim
  · have hv1 := (classWith_valid hv).2
    obtain ⟨cleared, rfl⟩ := a.left.invalidate_eq hph
    rw [after, if_pos hpage, stepOld, hpage, header.1 (.inr (.inr hph)), invalidation_byte1] at hv1
    exact (recByte_ne_blank r hv1).elim

/-- R4's second guarantee goes over to a state with the same directory whose array differs in the page of an attempt
that completes nothing. -/
theorem OtherCopyOk.written {s t : State} (h : OtherCopyOk s) (ha : ArrayOk s) (hi : DirectoryInv s) (hp : PlacesOk s)
    (hb : BufferOk s) (hh : HeaderOk s) (hd : SameDir s t) {e : Entry} {st : EngineStep} {x : PageBytes}
    (a : PageStep s e st x) (ht : t.array = writePage s.array (stepPlane s st) (stepPage s st) x)
    (hx : ¬(st.phase = .program ∧ st.k = st.m ∧ x = stepContent s st)) : OtherCopyOk t := by
  intro r le pl b g he hc hbits hv
  rw [hd.entry] at he
  rw [hd.content] at hc ⊢
  by_cases hown : ∃ p c gen, e = ⟨p, .record r c gen⟩ ∧ stepPlane s st = pl
  · obtain ⟨p, c, gen, rfl, rfl⟩ := hown
    obtain ⟨hbits', hv'⟩ := target_not_valid ha hi hp hb hh a hx ht he hbits hv
    exact h r le _ b g he hc hbits' hv'
  · have misses := step_misses_copy hi hp a.entry a.step he (pl := pl) fun p c gen hE hpl => hown ⟨p, c, gen, hE, hpl⟩
    obtain ⟨-, -, -, hbase⟩ := (placementOk_iff _ _).mp (hi.place he)
    have extent : readExtent t.array pl le.basePage (extentPages le.length) =
        readExtent s.array pl le.basePage (extentPages le.length) := by
      rw [ht]
      exact readExtent_writePage_of_beside a.page hbase misses
    rw [byte0_readExtent _ _ _ le.length, extent, ← byte0_readExtent] at hbits
    rw [classWith_congr rfl extent] at hv
    exact h r le pl b g he hc hbits hv

theorem OtherCopyOk.same {s t : State} (h : OtherCopyOk s) (hd : SameDir s t) (ht : t.array = s.array) : OtherCopyOk t := by
  intro r le pl b g he hc hbits hv
  rw [hd.entry] at he
  rw [hd.content] at hc ⊢
  rw [ht] at hbits
  exact h r le pl b g he hc hbits ((classWith_congr rfl (by rw [ht])).symm.trans hv)

theorem plane_eq_of_ne {pl c : Plane} (h : pl ≠ targetCopy (some c)) : pl = c := by
  cases pl <;> cases c <;> first | rfl | exact absurd rfl h

/-- A VALID image stays one as it is, with its own generation (R25). -/
theorem classWith_of_image {s : State} {r : RecNo} {e : LayoutEntry} {pl : Plane} {b : Byte} {g g' : Gen}
    (h : classifyRecord r e.length pl (readExtent s.array pl e.basePage (extentPages e.length)) = .valid g)
    (hv : classWith s r e pl b = .valid g') : g' = g := by
  have hn := extentPages_pos e.length
  have hb := (classWith_valid hv).1
  have h0 := (classifyRecord_valid h).1
  have whole : b :: (readExtent s.array pl e.basePage (extentPages e.length)).drop 1 =
      readExtent s.array pl e.basePage (extentPages e.length) := by
    generalize hl : readExtent s.array pl e.basePage (extentPages e.length) = l at h0
    cases l with
    | nil => simp [byteAt, Config.blankByte] at h0
    | cons y ys =>
      rw [hb, ← h0]
      rfl
  rw [classWith, whole, h] at hv
  exact (RecordClass.valid.inj hv).symm

/-- When a commit completes, the former current copy carries the predecessor, and there was no VALID copy beside it
(R4, R12, R71). -/
theorem OtherCopyOk.record {s t : State} (h : OtherCopyOk s) (hi : DirectoryInv s) (hp : PlacesOk s) (him : ImagesOk s)
    {p : Port} {r : RecNo} {c : Condition} {gen : Gen} {st : EngineStep} (a : LastStep s ⟨p, .record r c gen⟩ st)
    (hd : RecordDone (stepLeft s st (stepContent s st)) r (targetCopy (slotOf s r).content.current)
      (successor (slotOf s r).content.generation) t) : OtherCopyOk t := by
  intro q le pl b g he hc hbits hv
  have slot : q ≠ r → slotOf t q = slotOf s q := fun hq => by rw [hd.others q hq, leavePage_slot]
  have entry : (slotOf s q).entry = some le := by
    by_cases hq : q = r
    · subst hq
      rwa [hd.slot, leavePage_slot] at he
    · rwa [slot hq] at he
  have plane : q = r → stepPlane s st ≠ pl := by
    rintro rfl rfl
    obtain ⟨-, -, -, -, ht, -⟩ := hi.recordLink a.page.entry
    exact hc (by rw [hd.slot, a.target, ht]; rfl)
  have misses := step_misses_copy hi hp a.page.entry a.page.step entry (pl := pl) fun p' c' g' hE => by
    simp only [Entry.mk.injEq, Work.record.injEq] at hE
    exact plane hE.2.1.symm
  obtain ⟨-, -, -, hbase⟩ := (placementOk_iff _ _).mp (hi.place entry)
  have extent : readExtent t.array pl le.basePage (extentPages le.length) =
      readExtent s.array pl le.basePage (extentPages le.length) := by
    rw [hd.array]
    exact readExtent_of_misses a.page hbase misses
  rw [byte0_readExtent _ _ _ le.length, extent, ← byte0_readExtent] at hbits
  rw [classWith_congr rfl extent] at hv
  by_cases hq : q = r
  · subst hq
    rw [hd.slot] at hc ⊢
    refine ⟨_, _, rfl, ?_⟩
    cases hcontent : (slotOf s q).content with
    | valid c₀ g₀ =>
      rw [hcontent] at hc
      obtain rfl : pl = c₀ := plane_eq_of_ne fun hpl => hc (by rw [hpl]; rfl)
      rw [classWith_of_image (him q le pl g₀ entry hcontent) hv]
      rfl
    | undefined | empty | damaged =>
      obtain ⟨c', g', hvalid, -⟩ := h q le pl b g entry (by simp [hcontent, Content.current]) hbits hv
      simp [hcontent] at hvalid
  · rw [slot hq] at hc ⊢
    exact h q le pl b g entry hc hbits hv

/-- A layout operation that completes leaves every record's copies; those of a record newly defined hold no image
(R135, R137). -/
theorem OtherCopyOk.layout {s t : State} (h : OtherCopyOk s) (hi : DirectoryInv s) (hp : PlacesOk s) (ha : ArrayOk s)
    (hh : HeaderOk s) {p : Port} {op : LayoutOp} {st : EngineStep} (a : LastStep s ⟨p, .layout op⟩ st) {c : Plane} {g₀ : Gen}
    (hd : LayoutDone (stepLeft s st (stepContent s st)) op c g₀ t) : OtherCopyOk t := by
  intro q le pl b g he hc hbits hv
  have slot := hd.slot q
  rw [leavePage_slot] at slot
  cases slot with
  | undefined hy => simp [hy, Slot.undefined] at he
  | defined e' hop hy hc' =>
    subst hop
    obtain rfl := Option.some.inj (hy.symm.trans he)
    obtain ⟨h0, h1⟩ := ((headerOk_iff s).mp hh).2 p q e' st a.page.entry a.page.step
    refine absurd hv (not_valid_of_erased ?_)
    rw [hd.array, leavePage_array, define_page hi hp ha a.page, if_neg fun hk => by simp [a.phase] at hk]
    cases pl with
    | p0 => exact h0 (.inl (by simp [a.phase]))
    | p1 => exact h1 (.inr (.inl a.phase))
  | kept e₀ e' hx hy hl hbase hc' =>
    obtain rfl := Option.some.inj (hy.symm.trans he)
    have misses := step_misses_copy hi hp a.page.entry a.page.step hx (pl := pl) fun p' c' g' hE => by simp at hE
    obtain ⟨-, -, -, hbound⟩ := (placementOk_iff _ _).mp (hi.place hx)
    have extent : readExtent t.array pl e'.basePage (extentPages e'.length) =
        readExtent s.array pl e₀.basePage (extentPages e₀.length) := by
      rw [hd.array, hl, hbase]
      exact readExtent_of_misses a.page hbound misses
    rw [byte0_readExtent _ _ _ e'.length, extent, ← byte0_readExtent] at hbits
    rw [classWith_congr hl extent] at hv
    rw [hc'] at hc ⊢
    exact h q e₀ pl b g hx hc hbits hv

/-- R4's second guarantee is kept by every command outside MOUNTING. -/
theorem OtherCopyOk.of_effect {s t : State} {i : Instr} (h : OtherCopyOk s) (ha : ArrayOk s) (hi : DirectoryInv s)
    (hp : PlacesOk s) (hb : BufferOk s) (him : ImagesOk s) (hh : HeaderOk s) (hdev : s.device ≠ .mounting)
    (x : Effect s i t) : OtherCopyOk t := by
  cases x.dir hi hp with
  | same hd ht => exact h.same hd ht
  | written hd a ht hx => exact h.written ha hi hp hb hh hd a ht hx
  | record a hd => exact h.record hi hp him a hd
  | layout a hd => exact h.layout hi hp ha hh a hd
  | reset hs hl =>
    intro r e pl b g he
    simp [hs, Slot.undefined] at he
  | mounted hm hs tail => exact absurd (hi.mounting_of_mount (by simp [hm])) hdev
  | slotMounted hm he tail => exact absurd (hi.mounting_of_mount (by simp [hm])) hdev

end Sys2Proof.Machine

namespace Sys2Proof.Machine

open Sys2Proof

/-! ## R128: the layout current copy -/

/-- A step misses the layout current copy, but for a FORMAT's from its second erase phase on (R128, R136). -/
theorem step_misses_layout {s : State} (hi : DirectoryInv s) (hp : PlacesOk s) {e : Entry} {st : EngineStep}
    (he : s.engine.entry = some e) (hs : s.engine.step = some st) {v : LayoutVersion} (hv : s.dir.layout = some v)
    (hf : ¬FormatErases s) : Misses s st v.current 0 25 := by
  have current : layoutCurrent s = some v.current := by rw [layoutCurrent, hv]; rfl
  cases step_site hi hp he hs with
  | record hle hpl lo hh =>
    obtain ⟨-, -, hb, -⟩ := (placementOk_iff _ _).mp (hi.place hle)
    exact .inr (.inr (by omega))
  | define hph lo hh =>
    obtain ⟨-, hplace, -⟩ := hi.defineLink he
    obtain ⟨-, -, hb, -⟩ := (placementOk_iff _ _).mp hplace
    exact .inr (.inr (by omega))
  | layout hph hh =>
    rename_i p op
    left
    have target : op ≠ .format → s.engine.target = some (targetCopy (some v.current)) := fun hop => by
      rw [(hi.layoutLink he).1, ← current]
      cases op with
      | format => exact absurd rfl hop
      | define | delete | setAccess => rfl
    have erases : op = .format → st.phase ≠ .formatSecond ∧ st.phase ≠ .program := by
      rintro rfl
      exact ⟨fun h => hf ⟨p, st, he, hs, .inl h⟩, fun h => hf ⟨p, st, he, hs, .inr h⟩⟩
    obtain ⟨-, -, ⟨r, e, pl, -, h, -⟩ | ⟨h | h | h, -⟩⟩ := stepOk_layout (stepOk_of hp he hs)
    · exact absurd h (hph pl)
    · obtain ⟨hop, h | h⟩ := h
      · simp only [stepPlane, h, formatFirstPlane, current]
        cases v.current <;> decide
      · exact absurd h (erases hop).1
    · obtain ⟨hop, h⟩ := h
      simp only [stepPlane, h, target hop]
      exact targetCopy_ne _
    · have hop : op ≠ .format := fun hop => (erases hop).2 h
      simp only [stepPlane, h, target hop]
      exact targetCopy_ne _

/-- A layout operation that completes leaves in its target copy a VALID image of the layout as it then is (R137). -/
theorem LastStep.layout_image {s t : State} (ha : ArrayOk s) (hi : DirectoryInv s) (hp : PlacesOk s) (hb : BufferOk s)
    (hr : ProgressOk s) {p : Port} {op : LayoutOp} {st : EngineStep} (a : LastStep s ⟨p, .layout op⟩ st)
    (hd : LayoutDone (stepLeft s st (stepContent s st)) op (layoutTarget s op).1 (layoutTarget s op).2 t) :
    LayoutCopyOk t := by
  obtain ⟨ht, hg⟩ := hi.layoutLink a.page.entry
  have himage := entryImage_layout hb a.page.entry
  have hm : st.m = 25 := by
    obtain ⟨-, -, ⟨r, e, pl, -, hph, -⟩ | ⟨-, hm⟩⟩ := stepOk_layout (stepOk_of hp a.page.entry a.page.step)
    · simp [a.phase] at hph
    · exact hm
  have image := a.image ha hr (by rw [himage, layoutImage_length, hm])
  rw [himage, areaBase_layout a.page.entry, ht, hg, hm, Option.getD_some] at image
  have kept := a.page.kept hi
  have entries : t.dir.slots.map Slot.entry = layoutAfter s op := by
    rw [hd.entries]
    exact layoutAfter_congr (leavePage_steady _ _ _ _).dir.entry op
  obtain ⟨slots, apart⟩ := kept.1.directoryOk_of_layoutDone kept.2 hd
  have entry : ∀ r, (layoutAfter s op).get r = (slotOf t r).entry := fun r => by rw [← entries, Table.get_map]; rfl
  intro v hv
  obtain rfl := Option.some.inj (hd.layout.symm.trans hv)
  rw [entries, hd.array, Config.layoutPages, image]
  refine classifyLayout_layoutImage _ _ (layoutTarget_generation s op) (fun r e he => ?_) fun r r' hne => ?_
  · exact (slots r).2.2 e ((entry r).symm.trans he)
  · rw [entry, entry]
    exact apart r r' hne

/-- Mount takes the layout from a VALID copy, and its entries with it (R147). -/
theorem layoutCopyOk_mounted {s t : State} {v : LayoutVersion} {entries : Table 128 (Option LayoutEntry)}
    (hs : selectLayout (classifyLayout (readLayout s .p0)) (classifyLayout (readLayout s .p1)) = .ready v entries)
    (tail : MountTail (mounted s v entries) t) : LayoutCopyOk t := by
  intro v' hv
  rw [tail.dir] at hv
  obtain rfl : v = v' := Option.some.inj hv
  have slots : t.dir.slots.map Slot.entry = entries := Table.ext_get fun r => by
    rw [Table.get_map, tail.dir]
    exact congrArg Slot.entry (slotOf_mounted s v entries r)
  rw [slots, tail.array]
  exact selected_layout hs

/-- The layout fields and the persistent parts stay, and so does the layout current copy, but under a FORMAT from its
second erase phase on. -/
structure LayoutKept (s t : State) : Prop where
  layout : t.dir.layout = s.dir.layout
  entry : ∀ r, (slotOf t r).entry = (slotOf s r).entry
  copy : ¬FormatErases s → ∀ v, s.dir.layout = some v →
    readExtent t.array v.current 0 25 = readExtent s.array v.current 0 25

theorem layoutKept_of_page {s t : State} (hi : DirectoryInv s) (hp : PlacesOk s) {e : Entry} {st : EngineStep}
    {x : PageBytes} (a : PageStep s e st x) (ht : t.array = writePage s.array (stepPlane s st) (stepPage s st) x)
    (hl : t.dir.layout = s.dir.layout) (he : ∀ r, (slotOf t r).entry = (slotOf s r).entry) : LayoutKept s t :=
  ⟨hl, he, fun hf v hv => by
    rw [ht]
    exact readExtent_writePage_of_beside a.page (by omega) (step_misses_layout hi hp a.entry a.step hv hf)⟩

/-- A command keeps the layout as it stands, or leaves a layout whose current copy is VALID. -/
theorem DirEffect.layout_cases {s t : State} (x : DirEffect s t) (ha : ArrayOk s) (hi : DirectoryInv s) (hp : PlacesOk s)
    (hb : BufferOk s) (hr : ProgressOk s) : LayoutCopyOk t ∨ LayoutKept s t := by
  cases x with
  | same hd ht => exact .inr ⟨hd.layout, hd.entry, fun _ _ _ => by rw [ht]⟩
  | written hd a ht hx => exact .inr (layoutKept_of_page hi hp a ht hd.layout hd.entry)
  | record a hd =>
    refine .inr (layoutKept_of_page hi hp a.page (by rw [hd.array, leavePage_array]) (by rw [hd.layout, leavePage_dir])
      fun q => ?_)
    rename_i p r c g st
    by_cases hq : q = r
    · rw [hq, hd.slot, leavePage_slot]
    · rw [hd.others q hq, leavePage_slot]
  | layout a hd => exact .inl (a.layout_image ha hi hp hb hr hd)
  | reset hs hl => exact .inl fun v hv => by simp [hl] at hv
  | mounted hm hs tail => exact .inl (layoutCopyOk_mounted hs tail)
  | slotMounted hm he tail =>
    rename_i r0 r e
    refine .inr ⟨by rw [tail.dir]; rfl, fun q => ?_, fun _ _ _ => by rw [tail.array]; rfl⟩
    have slot : slotOf t q = slotOf (Machine.slotMounted s r e) q := by simp only [slotOf, tail.dir]
    rw [slot, slotOf_setSlot]
    split
    · subst_vars; rfl
    · rfl

theorem LayoutKept.copyOk {s t : State} (k : LayoutKept s t) (h : LayoutCopyOk s) (hf : ¬FormatErases s) :
    LayoutCopyOk t := by
  intro v hv
  rw [k.layout] at hv
  have entries : t.dir.slots.map Slot.entry = s.dir.slots.map Slot.entry :=
    Table.ext_get fun r => by rw [Table.get_map, Table.get_map]; exact k.entry r
  rw [entries, Config.layoutPages, k.copy hf v hv]
  exact h v hv

/-- Without a layout no slot is defined (R128, R143). -/
theorem DirectoryInv.noneDefined {s : State} (h : DirectoryInv s) (hl : s.dir.layout = none) : NoneDefined s := by
  cases hd : s.device with
  | ready => exact absurd hl (h.layout_of (.inl hd))
  | unformatted => exact (h.blank (.inr (.inl hd))).2
  | layoutDamaged => exact (h.blank (.inr (.inr hd))).2
  | mounting =>
    cases hm : s.mount with
    | idle => exact (h.blank (.inl ⟨hd, .inl hm⟩)).2
    | layout => exact (h.blank (.inl ⟨hd, .inr hm⟩)).2
    | records r => exact absurd hl (h.layout_of (.inr ⟨r, hm⟩))

theorem DirectoryInv.layoutOk {s : State} (h : DirectoryInv s) (hc : LayoutCopyOk s) : LayoutOk s := by
  cases hl : s.dir.layout with
  | none => exact .inl (h.noneDefined hl)
  | some v => exact .inr ⟨by simp [hl], hc⟩

/-- R128 while some record is defined: a FORMAT has none. -/
theorem LayoutKept.layoutOk {s t : State} (k : LayoutKept s t) (hi : DirectoryInv s) (h : LayoutOk s) : LayoutOk t := by
  have none : NoneDefined s → LayoutOk t := fun hn => .inl fun r => (k.entry r).trans (hn r)
  rcases h with hn | ⟨hl, hc⟩
  · exact none hn
  · by_cases hf : FormatErases s
    · obtain ⟨p, st, he, -⟩ := hf
      exact none (hi.formatEmpty he)
    · exact .inr ⟨by rw [k.layout]; exact hl, k.copyOk hc hf⟩

/-- The last attempt of a layout entry with its page as it is to be: the entry completes (R137). -/
theorem exec_layout_completes {s : State} {cleared : PageBytes} {p : Port} {op : LayoutOp} {st : EngineStep} {c : Plane}
    (he : s.engine.entry = some ⟨p, .layout op⟩) (hs : s.engine.step = some st) (hstate : s.engine.state = .program)
    (hph : st.phase = .program) (hk : st.k = st.m) (ht : s.engine.target = some c)
    (hold : (s.arbiters.get c).holder = .engine)
    (hx : programAttempt (readPage s.array c 0) (stepContent s st) cleared = stepContent s st) :
    LastStep s ⟨p, .layout op⟩ st ∧ exec (.programAttemptDone cleared) s =
      .next (completeEntry ⟨p, .layout op⟩ (stepLeft s st (stepContent s st))) := by
  have plane : stepPlane s st = c := by rw [stepPlane_program hph, ht, Option.getD_some]
  have page : stepPage s st = 0 := by rw [stepPage_program hph, if_pos hk, areaBase_layout he]
  have inArray : stepPage s st < Config.planePages := by rw [page]; decide
  have under : attemptUnderWay s st = true := by simp [attemptUnderWay, plane, arbiterOf, hold, hstate, hph, phaseState]
  have left : programAttempt (stepOld s st) (stepContent s st) cleared = stepContent s st := by rw [stepOld, plane, page, hx]
  refine ⟨⟨⟨he, hs, inArray, ?_⟩, hph, hk⟩, ?_⟩
  · have attempted := Attempted.program (s := s) cleared hph
    rwa [left] at attempted
  · rw [stepOld] at left
    simp only [exec, execProgramAttemptDone, he, hs, under, hph, decide_true, Bool.and_self, if_true, inArray, left,
      stepPassed, nextStep_last (.inr ⟨hph, hk⟩)]

theorem layoutCompletes_copyOk {s s' : State} (h : LayoutCompletes s) (ha : ArrayOk s) (hi : DirectoryInv s)
    (hp : PlacesOk s) (hb : BufferOk s) (hr : ProgressOk s) (hs : step s = .next s') : LayoutCopyOk s' := by
  obtain ⟨cleared, rest, p, op, st, c, hpend, he, hst, hstate, hph, hk, ht, hold, hx⟩ := h
  obtain ⟨last, hexec⟩ := exec_layout_completes (s := { s with pending := rest }) he hst hstate hph hk ht hold hx
  have hs' : exec (.programAttemptDone cleared) { s with pending := rest } = .next s' := by
    rw [← hs, step, hpend]
  obtain rfl := Host.Outcome.next.inj (hexec.symm.trans hs')
  have hi' : DirectoryInv { s with pending := rest } := hi
  have kept := last.page.kept hi'
  rcases completeEntry_done kept.1 kept.2 with ⟨p', r, c', g, hE, -⟩ | ⟨p', op', hE, hd⟩
  · simp at hE
  · obtain ⟨-, hE⟩ := Entry.mk.inj hE
    obtain rfl := Work.layout.inj hE
    rw [layoutTarget_congr (leavePage_steady _ _ _ _).dir.layout] at hd
    exact LastStep.layout_image (s := { s with pending := rest }) ha hi' hp hb hr last hd

/-- Settles O59: each guarantee is kept by everything that a command can do. -/
theorem currentCopiesStayValid : Obligations.CurrentCopiesStayValid := by
  rintro s s' ⟨ha, hi, hp, hb, hr, him⟩ hs
  have completes : LayoutCompletes s → LayoutCopyOk s' := fun h => layoutCompletes_copyOk h ha hi hp hb hr hs
  rcases step_cases hs with ⟨-, rfl⟩ | ⟨i, rest, -, hx⟩
  · exact ⟨hb, hr, him, fun hh => ⟨hh, fun _ h => h⟩, fun h => h, fun h _ => h,
      fun h => h.elim (fun hne => absurd rfl hne) completes⟩
  · have effect := exec_effect hx
    have hi' : DirectoryInv { s with pending := rest } := hi
    have engine := effect.engine hi'
    have layout : LayoutCopyOk s' ∨ LayoutKept { s with pending := rest } s' :=
      (effect.dir hi' hp).layout_cases ha hi' hp hb hr
    refine ⟨BufferOk.of_effect (s := { s with pending := rest }) hb engine,
      ProgressOk.of_effect (s := { s with pending := rest }) hr ha engine,
      ImagesOk.of_effect (s := { s with pending := rest }) him ha hi' hp hb hr effect,
      fun hh => ⟨HeaderOk.of_effect (s := { s with pending := rest }) hh hi' hp ha hb engine,
        fun hdev ho => OtherCopyOk.of_effect (s := { s with pending := rest }) ho ha hi' hp hb him hh hdev effect⟩,
      fun h => ?_, fun h hf => ?_, fun h => ?_⟩
    · exact layout.elim (hi'.of_effect effect).layoutOk fun k => k.layoutOk hi' h
    · exact layout.elim id fun k => k.copyOk h hf
    · exact h.elim (fun hne => layout.elim id fun k => absurd k.layout hne) completes

end Sys2Proof.Machine

namespace Sys2Proof.Machine

open Sys2Proof

/-! # Transport, waiting commands and reads at every command

Beside what `Effect` lists, a command keeps the waiting commands, the transport state of every port and the places of
the reads in progress. Most of what a command is built of does so by itself (`Tidy`); a new read alone has its place
from the directory (`Kept`). -/

/-! ## The transport state (R166, R167, R171, R179) -/

/-- A port's request and response: never both, and a response due only for the request in progress (R171). -/
def ExchangeOk (x : PortIf) : Prop :=
  (x.response = none ∨ x.inProgress = none) ∧ ∀ r, x.due = some r → x.inProgress = some r.tag

/-- A receiver against the level of its chip select, whether its port takes frames and whether a reset is in force
(R166). -/
def ReceiverOk (x : ReceiverState) (low taken force : Bool) : Prop :=
  (low = false → x = .idle) ∧ (force = false → low = true → x ≠ .idle) ∧ ∀ f, x = .receiving f → taken = true

theorem portOk_iff (s : State) (p : Port) : PortOk s p ↔ ExchangeOk (s.ports.get p) ∧
    ReceiverOk (s.ports.get p).receiver (s.csLow.get p) (framesTaken s p) (resetInForce s) :=
  ⟨fun ⟨h1, h2, h3, h4, h5⟩ => ⟨⟨h1, h2⟩, h3, h4, h5⟩, fun ⟨⟨h1, h2⟩, h3, h4, h5⟩ => ⟨h1, h2, h3, h4, h5⟩⟩

theorem exchangeOk_none {x : PortIf} (hp : x.inProgress = none) (hd : x.due = none) : ExchangeOk x :=
  ⟨.inr hp, by simp [hd]⟩

theorem receiverOk_at_level (low taken force : Bool) :
    ReceiverOk (if low then .ignoring else .idle) low taken force := by
  cases low <;> simp [ReceiverOk]

/-- The transport state reads the ports, their two inputs, and whether a reset is in force. -/
theorem TransportOk.congr {s t : State} (h : TransportOk s) (hp : t.ports = s.ports) (hc : t.csLow = s.csLow)
    (hl : t.clearLow = s.clearLow) (hr : resetInForce t = resetInForce s) : TransportOk t := fun p => by
  simp only [PortOk, framesTaken, hp, hc, hl, hr]
  exact h p

/-- One port's transport state and inputs change. -/
theorem TransportOk.atPort {s t : State} {p : Port} (h : TransportOk s) (hr : resetInForce t = resetInForce s)
    (others : ∀ q, q ≠ p → t.ports.get q = s.ports.get q ∧ t.csLow.get q = s.csLow.get q ∧
      t.clearLow.get q = s.clearLow.get q) (hp : PortOk t p) : TransportOk t := fun q => by
  by_cases hq : q = p
  · rwa [hq]
  · obtain ⟨ports, cs, clear⟩ := others q hq
    simp only [PortOk, framesTaken, ports, cs, clear, hr]
    exact h q

/-- A port's request and response change, its receiver stays. -/
theorem TransportOk.exchange {s : State} {p : Port} {x : PortIf} (h : TransportOk s)
    (hx : ExchangeOk x) (hr : x.receiver = (s.ports.get p).receiver) : TransportOk (setPort p x s) := by
  refine h.atPort (p := p) rfl (fun q hq => ⟨PerPort.get_set_ne _ _ _ _ hq, rfl, rfl⟩) ((portOk_iff _ p).mpr ?_)
  obtain ⟨-, receiver⟩ := (portOk_iff s p).mp (h p)
  simp only [setPort_ports, PerPort.get_set_self, hr]
  exact ⟨hx, receiver⟩

/-- A port's receiver changes, and with it the level of its chip select. -/
theorem TransportOk.receiver {s : State} {p : Port} {x : ReceiverState} {low : Bool} (h : TransportOk s)
    (hx : ReceiverOk x low (framesTaken s p) (resetInForce s)) : TransportOk (setCs p low (setReceiver p x s)) := by
  refine h.atPort (p := p) rfl (fun q hq => ⟨PerPort.get_set_ne _ _ _ _ hq, PerPort.get_set_ne _ _ _ _ hq, rfl⟩)
    ((portOk_iff _ p).mpr ?_)
  obtain ⟨exchange, -⟩ := (portOk_iff s p).mp (h p)
  simp only [setReceiver, setCs_ports, setPort_ports, PerPort.get_set_self, setCs_csLow]
  exact ⟨exchange, hx⟩

/-! ## What the parts of a command keep -/

/-- Every read of the second state is one of the first, on the same extent. -/
def ReadsKept (s t : State) : Prop :=
  ∀ q rd, t.reads.get q = some rd → ∃ rd₀, s.reads.get q = some rd₀ ∧ rd.basePage = rd₀.basePage ∧ rd.length = rd₀.length

/-- The commands wait as before, the transport state is kept, and no read begins. -/
structure Tidy (s t : State) : Prop where
  pending : t.pending = s.pending
  transport : TransportOk s → TransportOk t
  reads : ReadsKept s t

theorem ReadsKept.of_eq {s t : State} (h : t.reads = s.reads) : ReadsKept s t :=
  fun q rd hq => ⟨rd, by rw [← h, hq], rfl, rfl⟩

theorem Tidy.refl (s : State) : Tidy s s := ⟨rfl, id, .of_eq rfl⟩

theorem Tidy.trans {s t u : State} (x : Tidy s t) (y : Tidy t u) : Tidy s u := by
  refine ⟨y.pending.trans x.pending, fun h => y.transport (x.transport h), fun q rd hq => ?_⟩
  obtain ⟨rd₁, h₁, hb₁, hl₁⟩ := y.reads q rd hq
  obtain ⟨rd₀, h₀, hb₀, hl₀⟩ := x.reads q rd₁ h₁
  exact ⟨rd₀, h₀, hb₁.trans hb₀, hl₁.trans hl₀⟩

theorem Tidy.forPorts {f : Port → State → State} (x : ∀ p s, Tidy s (f p s)) (s : State) : Tidy s (forPorts f s) :=
  (((x _ _).trans (x _ _)).trans (x _ _)).trans (x _ _)

/-- The homes outside the queue of commands, the transport state with its inputs, and reset control. -/
def tidyHomes : Homes :=
  { array := true, sessions := true, dir := true, queue := true, engine := true, results := true, arbiters := true
    locks := true, reports := true, notices := true, flags := true, masks := true, mount := true, device := true }

/-- The arbiters and the reads change, and no read begins. -/
theorem Only.tidy_of_reads {h : Homes} {s t : State} (x : Only h s t) (hr : ReadsKept s t)
    (hh : h.le { tidyHomes with reads := true } = true) : Tidy s t := by
  have y := x.mono hh
  refine ⟨y.pending rfl, fun k => k.congr (y.ports rfl) (y.csLow rfl) (y.clearLow rfl) ?_, hr⟩
  rw [resetInForce, resetInForce, y.rc rfl]

theorem Only.tidy {h : Homes} {s t : State} (x : Only h s t) (hh : h.le tidyHomes = true) : Tidy s t := by
  have y := x.mono hh
  exact y.tidy_of_reads (.of_eq (y.reads rfl)) (by decide)

/-- Reset control changes, the sources in force stay. -/
theorem setRc_tidy {x : ResetControl} {s : State} (h : x.sources = s.rc.sources) : Tidy s (setRc x s) :=
  ⟨rfl, fun k => k.congr rfl rfl rfl (by simp only [resetInForce, setRc_rc, h]), .of_eq rfl⟩

/-! ### The transport -/

theorem setPort_tidy {p : Port} {x : PortIf} {s : State} (hx : ExchangeOk (s.ports.get p) → ExchangeOk x)
    (hr : x.receiver = (s.ports.get p).receiver) : Tidy s (setPort p x s) :=
  ⟨rfl, fun k => k.exchange (hx ((portOk_iff s p).mp (k p)).1) hr, .of_eq rfl⟩

theorem respond_tidy (p : Port) (c : ResultCode) (b : List Byte) (s : State) : Tidy s (respond p c b s) := by
  unfold respond
  split
  · rename_i tag hp
    refine setPort_tidy (fun ⟨hx, _⟩ => ⟨hx, fun r hr => ?_⟩) rfl
    obtain rfl := Option.some.inj hr
    exact hp
  · exact .refl s

theorem writeReply_tidy (p : Port) (s : State) : Tidy s (writeReply p s) := by
  unfold writeReply
  split
  · exact setPort_tidy (fun _ => exchangeOk_none rfl rfl) rfl
  · exact .refl s

theorem answer_tidy (p : Port) (c : ResultCode) (b : List Byte) (s : State) : Tidy s (answer p c b s) :=
  (respond_tidy p c b s).trans (writeReply_tidy p _)

theorem acceptRequest_tidy (p : Port) (tag : Byte) (s : State) : Tidy s (acceptRequest p tag s) :=
  setPort_tidy (fun _ => ⟨.inl rfl, fun _ hr => by simp at hr⟩) rfl

theorem recordOutcome_tidy (p : Port) (o : FrameOutcome) (s : State) : Tidy s (recordOutcome p o s) :=
  setPort_tidy id rfl

theorem receiver_tidy {p : Port} {x : ReceiverState} {low : Bool} {s : State}
    (hx : ReceiverOk x low (framesTaken s p) (resetInForce s)) : Tidy s (setCs p low (setReceiver p x s)) :=
  ⟨rfl, fun k => k.receiver hx, .of_eq rfl⟩

theorem fallFrame_tidy (p : Port) (s : State) : Tidy s (fallFrame p s) := by
  unfold fallFrame
  split
  · exact .refl s
  · refine receiver_tidy ?_
    split
    · rename_i taken
      simp [ReceiverOk, taken]
    · simp [ReceiverOk]

theorem endFrame_tidy (p : Port) (s : State) : Tidy s (endFrame p s) :=
  receiver_tidy (receiverOk_at_level false _ _)

theorem clockFrame_tidy (p : Port) (bytes : List Byte) (extra : Nat) (s : State) :
    Tidy s (clockFrame p bytes extra s) := by
  unfold clockFrame
  split
  · rename_i f hf
    split
    · refine ⟨rfl, fun k => ?_, .of_eq rfl⟩
      obtain ⟨exchange, idle, -, taken⟩ := (portOk_iff s p).mp (k p)
      refine k.atPort (p := p) rfl (fun q hq => ⟨PerPort.get_set_ne _ _ _ _ hq, rfl, rfl⟩) ((portOk_iff _ p).mpr ?_)
      simp only [setPort_ports, PerPort.get_set_self]
      exact ⟨exchange, fun low => absurd (hf.symm.trans (idle low)) (by simp), by simp, fun _ _ => taken f hf⟩
    · exact .refl s
  · exact .refl s

/-! ### Reads -/

theorem readsKept_set {s : State} {p : Port} {x : Option Read} (hx : ∀ rd, x = some rd →
      ∃ rd₀, s.reads.get p = some rd₀ ∧ rd.basePage = rd₀.basePage ∧ rd.length = rd₀.length) :
    ReadsKept s (setRead p x s) := by
  intro q rd hq
  rw [setRead_reads, PerPort.get_set] at hq
  split at hq
  · rename_i hp
    rw [hp]
    exact hx rd hq
  · exact ⟨rd, hq, rfl, rfl⟩

theorem setRead_tidy {s : State} {p : Port} {x : Option Read} (hx : ∀ rd, x = some rd →
      ∃ rd₀, s.reads.get p = some rd₀ ∧ rd.basePage = rd₀.basePage ∧ rd.length = rd₀.length) :
    Tidy s (setRead p x s) :=
  (setRead_only p x s).tidy_of_reads (readsKept_set hx) (by decide)

theorem setRead_none_tidy (p : Port) (s : State) : Tidy s (setRead p none s) := setRead_tidy (by simp)

theorem grantRead_tidy (pl : Plane) (p : Port) (s : State) : Tidy s (grantRead pl p s) := by
  refine ((setArbiter_only pl _ s).tidy (by decide)).trans (setRead_tidy fun rd hrd => ?_)
  obtain ⟨rd₀, h₀, rfl⟩ := Option.map_eq_some_iff.mp hrd
  exact ⟨rd₀, h₀, rfl, rfl⟩

theorem joinRead_tidy (pl : Plane) (p : Port) (s : State) : Tidy s (joinRead pl p s) := by
  simp only [joinRead]
  split
  · exact grantRead_tidy pl p s
  · exact (setArbiter_only pl _ s).tidy (by decide)

theorem endTenure_tidy (pl : Plane) (s : State) : Tidy s (endTenure pl s) := by
  refine (endTenure_only pl s).tidy_of_reads (fun q rd hq => ?_) (by decide)
  rcases endTenure_reads pl s q with h | h <;> rw [h] at hq
  · exact ⟨rd, hq, rfl, rfl⟩
  · obtain ⟨rd₀, h₀, rfl⟩ := Option.map_eq_some_iff.mp hq
    exact ⟨rd₀, h₀, rfl, rfl⟩

theorem withdrawRead_tidy (p : Port) (s : State) : Tidy s (withdrawRead p s) := by
  unfold withdrawRead
  split
  · exact ((setArbiter_only _ _ s).tidy (by decide)).trans (setRead_none_tidy p _)
  · exact .refl s

theorem moveRead_tidy (r : RecNo) (c : Plane) (p : Port) (s : State) : Tidy s (moveRead r c p s) := by
  refine (moveRead_only r c p s).tidy_of_reads (fun q rd hq => ?_) (by decide)
  rw [moveRead_reads] at hq
  split at hq
  · subst_vars
    obtain ⟨rd₀, h₀, rfl⟩ := Option.map_eq_some_iff.mp hq
    refine ⟨rd₀, h₀, ?_⟩
    split <;> exact ⟨rfl, rfl⟩
  · exact ⟨rd, hq, rfl, rfl⟩

theorem moveReads_tidy (r : RecNo) (c : Plane) (s : State) : Tidy s (moveReads r c s) := by
  have moved := Tidy.forPorts (moveRead_tidy r c) s
  simp only [moveReads]
  split
  · exact moved.trans (endTenure_tidy c _)
  · exact moved

theorem refuseOpen_tidy (r : RecNo) (p : Port) (s : State) : Tidy s (refuseOpen r p s) := by
  unfold refuseOpen
  repeat' split
  · exact (withdrawRead_tidy p s).trans (answer_tidy _ _ _ _)
  · rename_i rd hrd _ _ _
    exact setRead_tidy fun _ h => ⟨rd, hrd, by rw [← Option.some.inj h]; exact ⟨rfl, rfl⟩⟩
  · exact .refl s
  · exact .refl s

theorem refuseDeleted_tidy (r : RecNo) (p : Port) (s : State) : Tidy s (refuseDeleted r p s) := by
  unfold refuseDeleted
  split
  · split
    · exact (withdrawRead_tidy p s).trans (answer_tidy _ _ _ _)
    · exact .refl s
  · exact .refl s

theorem clearRead_tidy (p : Port) (s : State) : Tidy s (clearRead p s) := by
  unfold clearRead
  repeat' split
  · exact withdrawRead_tidy p s
  · exact ((setArbiter_only _ _ s).tidy (by decide)).trans (setRead_none_tidy p _)
  · exact .refl s

/-! ### The engine -/

theorem leavePage_tidy (pl : Plane) (page : Nat) (x : PageBytes) (s : State) : Tidy s (leavePage pl page x s) :=
  ((setArray_only _ s).tidy (by decide)).trans (endTenure_tidy pl _)

theorem askStep_tidy (st : EngineStep) (n : Nat) (s : State) : Tidy s (askStep st n s) :=
  (askStep_only st n s).tidy (by decide)

theorem stepFailed_tidy (e : Entry) (st : EngineStep) (s : State) : Tidy s (stepFailed e st s) :=
  (stepFailed_only e st s).tidy (by decide)

theorem handOutEnd_tidy (e : Entry) (x : CommitResult) (s : State) : Tidy s (handOutEnd e x s) :=
  (handOutEnd_only e x s).tidy (by decide)

theorem completeRecord_tidy (e : Entry) (r : RecNo) (c : Plane) (g : Gen) (s : State) :
    Tidy s (completeRecord e r c g s) := by
  simp only [completeRecord]
  refine Tidy.trans ?_ ((engineIdle_only _).tidy (by decide))
  refine Tidy.trans ?_ ((postNotices_only _ _ _ _).tidy (by decide))
  refine Tidy.trans ?_ (handOutEnd_tidy _ _ _)
  exact ((setSlot_only r _ s).tidy (by decide)).trans (moveReads_tidy r c _)

theorem applyLayoutOp_tidy (op : LayoutOp) (s : State) : Tidy s (applyLayoutOp op s) := by
  cases op with
  | format => exact Only.tidy (h := { dir := true, device := true }) (.ofEq rfl) (by decide)
  | define r e => exact (setSlot_only _ _ s).tidy (by decide)
  | delete r =>
    have dropped : ∀ p u, Tidy u (dropNotice r p (refuseDeleted r p u)) := fun p u =>
      (refuseDeleted_tidy r p u).trans ((dropNotice_only r p _).tidy (by decide))
    exact ((setSlot_only r Slot.undefined s).tidy (by decide)).trans (Tidy.forPorts dropped _)
  | setAccess r rs ws g =>
    simp only [applyLayoutOp, setAccessEffects]
    refine Tidy.trans ?_ ((applyWriteSet_only r ws _).tidy (by decide))
    refine ((setSlot_only r _ s).tidy (by decide)).trans (Tidy.forPorts (fun p u => ?_) _)
    split
    · exact (stopWatching_only r p u).tidy (by decide)
    · exact .refl u

theorem completeLayout_tidy (e : Entry) (op : LayoutOp) (c : Plane) (g : Gen) (s : State) :
    Tidy s (completeLayout e op c g s) := by
  simp only [completeLayout]
  refine Tidy.trans ?_ ((engineIdle_only _).tidy (by decide))
  refine Tidy.trans ?_ (Tidy.forPorts (fun p u => (setFlags_only p _ u).tidy (by decide)) _)
  refine Tidy.trans ?_ (handOutEnd_tidy _ _ _)
  exact ((setLayout_only _ s).tidy (by decide)).trans (applyLayoutOp_tidy op _)

theorem completeEntry_tidy (e : Entry) (s : State) : Tidy s (completeEntry e s) := by
  unfold completeEntry
  repeat' split
  · exact completeRecord_tidy _ _ _ _ _
  · exact completeLayout_tidy _ _ _ _ _
  · exact .refl s

theorem stepPassed_tidy (e : Entry) (st : EngineStep) (s : State) : Tidy s (stepPassed e st s) := by
  unfold stepPassed
  split
  · exact askStep_tidy _ _ _
  · exact completeEntry_tidy _ _

/-! ### Mount -/

theorem endMount_tidy (d : DeviceState) (s : State) : Tidy s (endMount d s) := by
  have sources : (endMount d s).rc.sources = s.rc.sources := by
    simp only [endMount]
    split <;> rfl
  have x := endMount_only d s
  refine ⟨x.pending rfl, fun k => k.congr (x.ports rfl) (x.csLow rfl) (x.clearLow rfl) ?_, .of_eq (x.reads rfl)⟩
  rw [resetInForce, resetInForce, sources]

theorem mountOn_tidy (r : RecNo) (s : State) : Tidy s (mountOn r s) := by
  unfold mountOn
  split
  · exact (setMount_only _ s).tidy (by decide)
  · exact endMount_tidy _ s

end Sys2Proof.Machine

namespace Sys2Proof.Machine

open Sys2Proof

/-! ### Requests: the services -/

theorem refuse_tidy (p : Port) (c : ResultCode) (s : State) : Tidy s (refuse p c s) := respond_tidy p c [] s

theorem setSession_tidy (p : Port) (x : Session) (s : State) : Tidy s (setSession p x s) :=
  (setSession_only p x s).tidy (by decide)

theorem setLock_tidy (r : RecNo) (x : Lock) (s : State) : Tidy s (setLock r x s) := (setLock_only r x s).tidy (by decide)

theorem handOn_tidy (r : RecNo) (s : State) : Tidy s (handOn r s) := (handOn_only r s).tidy (by decide)

theorem enqueue_tidy (p : Port) (w : Work) (s : State) : Tidy s (enqueue p w s) := by
  unfold enqueue
  refine Tidy.trans ?_ (respond_tidy _ _ _ _)
  exact Only.tidy (h := { queue := true, sessions := true }) (.ofEq rfl) (by decide)

theorem serveNop_tidy (p : Port) (body : List Byte) (s : State) : Tidy s (serveNop p body s) :=
  whenReady_cases (refuse_tidy p · s) fun _ => respond_tidy _ _ _ _

theorem serveQueryRecord_tidy (p : Port) (body : List Byte) (s : State) : Tidy s (serveQueryRecord p body s) := by
  have no := (refuse_tidy p · s)
  exact whenReady_cases no fun _ => withBody_cases no fun _ => respond_tidy _ _ _ _

theorem serveDeviceStatus_tidy (p : Port) (body : List Byte) (s : State) : Tidy s (serveDeviceStatus p body s) :=
  withBody_cases (refuse_tidy p · s) fun _ => respond_tidy _ _ _ _

theorem storeStaged_tidy (p : Port) (n o : Nat) (d : List Byte) (s : State) : Tidy s (storeStaged p n o d s) := by
  simp only [storeStaged]
  exact Tidy.trans (setSession_tidy _ _ _) (respond_tidy _ _ _ _)

theorem serveStage_tidy (p : Port) (body : List Byte) (s : State) : Tidy s (serveStage p body s) := by
  have no := (refuse_tidy p · s)
  refine whenReady_cases no fun _ => whenSession_cases no ?_
  split
  · split
    · exact storeStaged_tidy _ _ _ _ _
    · exact respond_tidy _ _ _ _
  · exact respond_tidy _ _ _ _

theorem serveAppend_tidy (p : Port) (body : List Byte) (s : State) : Tidy s (serveAppend p body s) := by
  have no := (refuse_tidy p · s)
  exact whenReady_cases no fun _ => whenSession_cases no <| withBody_cases no fun _ => storeStaged_tidy _ _ _ _ _

theorem serveCommit_tidy (p : Port) (body : List Byte) (s : State) : Tidy s (serveCommit p body s) := by
  have no := (refuse_tidy p · s)
  refine whenReady_cases no fun _ => whenSession_cases no <| withBody_cases no fun _ => refuseIf_cases no fun _ =>
    refuseIf_cases no fun _ => refuseIf_cases no fun _ => ?_
  unfold acceptCommit
  split
  · exact enqueue_tidy _ _ _
  · exact no _

theorem serveAbandon_tidy (p : Port) (body : List Byte) (s : State) : Tidy s (serveAbandon p body s) := by
  have no := (refuse_tidy p · s)
  refine whenReady_cases no fun _ => withBody_cases no fun _ => ?_
  split
  · exact respond_tidy _ _ _ _
  · exact (setSession_tidy _ _ _).trans (respond_tidy _ _ _ _)
  · exact (((removeEntry_only _ _).tidy (by decide)).trans (setSession_tidy _ _ _)).trans (respond_tidy _ _ _ _)
  · exact no _

theorem serveFetchCommitResult_tidy (p : Port) (body : List Byte) (s : State) :
    Tidy s (serveFetchCommitResult p body s) := by
  have no := (refuse_tidy p · s)
  refine whenReady_cases no fun _ => withBody_cases no fun _ => ?_
  split
  · exact respond_tidy _ _ _ _
  · exact no _

theorem lockRecord_tidy (p : Port) (r : RecNo) (lease wait : Nat) (s : State) : Tidy s (lockRecord p r lease wait s) := by
  simp only [lockRecord]
  repeat' split
  · exact (setLock_tidy _ _ _).trans (respond_tidy _ _ _ _)
  · exact (setLock_tidy _ _ _).trans (respond_tidy _ _ _ _)
  · exact respond_tidy _ _ _ _
  · exact refuse_tidy _ _ _
  · exact (setLock_tidy _ _ _).trans (respond_tidy _ _ _ _)

theorem serveLock_tidy (p : Port) (body : List Byte) (s : State) : Tidy s (serveLock p body s) := by
  have no := (refuse_tidy p · s)
  exact whenReady_cases no fun _ => withBody_cases no fun _ => withRecord_cases no fun _ _ => refuseIf_cases no fun _ =>
    refuseIf_cases no fun _ => lockRecord_tidy _ _ _ _ _

theorem unlockRecord_tidy (p : Port) (r : RecNo) (s : State) : Tidy s (unlockRecord p r s) := by
  simp only [unlockRecord]
  repeat' split
  · exact (handOn_tidy _ _).trans (respond_tidy _ _ _ _)
  · exact (setLock_tidy _ _ _).trans (respond_tidy _ _ _ _)
  · exact refuse_tidy _ _ _

theorem serveUnlock_tidy (p : Port) (body : List Byte) (s : State) : Tidy s (serveUnlock p body s) := by
  have no := (refuse_tidy p · s)
  exact whenReady_cases no fun _ => withBody_cases no fun _ => withRecord_cases no fun _ _ => unlockRecord_tidy _ _ _

theorem serveFetchLockReport_tidy (p : Port) (body : List Byte) (s : State) :
    Tidy s (serveFetchLockReport p body s) := by
  have no := (refuse_tidy p · s)
  exact whenReady_cases no fun _ => withBody_cases no fun _ => respond_tidy _ _ _ _

theorem serveWatch_tidy (p : Port) (body : List Byte) (s : State) : Tidy s (serveWatch p body s) := by
  have no := (refuse_tidy p · s)
  refine whenReady_cases no fun _ => withBody_cases no fun r => withRecord_cases no fun _ _ => refuseIf_cases no fun _ => ?_
  exact ((setSlot_only _ _ _).tidy (by decide)).trans (respond_tidy _ _ _ _)

theorem serveUnwatch_tidy (p : Port) (body : List Byte) (s : State) : Tidy s (serveUnwatch p body s) := by
  have no := (refuse_tidy p · s)
  exact whenReady_cases no fun _ => withBody_cases no fun _ =>
    ((stopWatching_only _ _ _).tidy (by decide)).trans (respond_tidy _ _ _ _)

theorem serveFetchNotice_tidy (p : Port) (body : List Byte) (s : State) : Tidy s (serveFetchNotice p body s) := by
  have no := (refuse_tidy p · s)
  refine whenReady_cases no fun _ => withBody_cases no fun _ => ?_
  split
  · exact no _
  · exact ((setNotices_only _ _ _).tidy (by decide)).trans (respond_tidy _ _ _ _)

theorem serveAcknowledge_tidy (p : Port) (body : List Byte) (s : State) : Tidy s (serveAcknowledge p body s) :=
  withBody_cases (refuse_tidy p · s) fun _ => ((setFlags_only _ _ _).tidy (by decide)).trans (respond_tidy _ _ _ _)

theorem serveSetAttentionMask_tidy (p : Port) (body : List Byte) (s : State) :
    Tidy s (serveSetAttentionMask p body s) :=
  withBody_cases (refuse_tidy p · s) fun _ => ((setMask_only _ _ _).tidy (by decide)).trans (respond_tidy _ _ _ _)

theorem serveFormat_tidy (p : Port) (body : List Byte) (s : State) : Tidy s (serveFormat p body s) := by
  have no := (refuse_tidy p · s)
  exact serveLayout_cases no fun _ _ => refuseIf_cases no fun _ => acceptLayout_cases no (enqueue_tidy _ _ _)

theorem serveDefine_tidy (p : Port) (body : List Byte) (s : State) : Tidy s (serveDefine p body s) := by
  have no := (refuse_tidy p · s)
  exact serveLayout_cases no fun _ _ => refuseIf_cases no fun _ => refuseIf_cases no fun _ => refuseIf_cases no fun _ =>
    acceptLayout_cases no (enqueue_tidy _ _ _)

theorem serveDelete_tidy (p : Port) (body : List Byte) (s : State) : Tidy s (serveDelete p body s) := by
  have no := (refuse_tidy p · s)
  have marked : ∀ r u, Tidy u (markDeleted r u) := fun r u =>
    ((setSlot_only r _ u).tidy (by decide)).trans (Tidy.forPorts (refuseOpen_tidy r) _)
  exact serveLayout_cases no fun _ r => withRecord_cases no fun _ _ => refuseIf_cases no fun _ =>
    acceptLayout_cases no ((enqueue_tidy p (.layout (.delete r)) s).trans (marked r _))

theorem serveSetAccess_tidy (p : Port) (body : List Byte) (s : State) : Tidy s (serveSetAccess p body s) := by
  have no := (refuse_tidy p · s)
  exact serveLayout_cases no fun _ _ => withRecord_cases no fun _ _ => acceptLayout_cases no (enqueue_tidy _ _ _)

theorem serveRestart_tidy (p : Port) (body : List Byte) (s : State) : Tidy s (serveRestart p body s) := by
  have no := (refuse_tidy p · s)
  exact refuseIf_cases no fun _ => refuseIf_cases no fun _ => withBody_cases no fun _ =>
    (setRc_tidy (x := { s.rc with restartPending := true }) rfl).trans (respond_tidy _ _ _ _)

/-! ### The places of the reads (R18, R24) -/

/-- Every extent that a read works on lies in the array. -/
def ReadsPlaced (s : State) : Prop :=
  ∀ p rd, s.reads.get p = some rd → extentInArray rd.basePage (extentPages rd.length) = true

/-- Every slot's extent lies in the array. -/
def SlotsPlaced (s : State) : Prop :=
  ∀ r e, (slotOf s r).entry = some e → extentInArray e.basePage (extentPages e.length) = true

/-- `Tidy`, but that a read may begin: it has its place where the slots have theirs. -/
structure Kept (s t : State) : Prop where
  pending : t.pending = s.pending
  transport : TransportOk s → TransportOk t
  reads : SlotsPlaced s → ReadsPlaced s → ReadsPlaced t

theorem ReadsPlaced.of_kept {s t : State} (h : ReadsPlaced s) (k : ReadsKept s t) : ReadsPlaced t := fun q rd hq => by
  obtain ⟨rd₀, h₀, hb, hl⟩ := k q rd hq
  rw [hb, hl]
  exact h q rd₀ h₀

theorem Tidy.kept {s t : State} (x : Tidy s t) : Kept s t := ⟨x.pending, x.transport, fun _ h => h.of_kept x.reads⟩

theorem Kept.refl (s : State) : Kept s s := (Tidy.refl s).kept

theorem Kept.then {s t u : State} (x : Kept s t) (y : Tidy t u) : Kept s u :=
  ⟨y.pending.trans x.pending, fun h => y.transport (x.transport h), fun hs hr => (x.reads hs hr).of_kept y.reads⟩

theorem Tidy.andThen {s t u : State} (x : Tidy s t) (hd : t.dir = s.dir) (y : Kept t u) : Kept s u := by
  refine ⟨y.pending.trans x.pending, fun h => y.transport (x.transport h), fun hs hr => ?_⟩
  have slots : SlotsPlaced t := by
    simp only [SlotsPlaced, slotOf, hd]
    exact hs
  exact y.reads slots (hr.of_kept x.reads)

/-- A read begins on the extent of its record's slot (R103). -/
theorem startRead_kept (p : Port) (k : ReadKind) {r : RecNo} {e : LayoutEntry} (c : Plane) {s : State}
    (he : (slotOf s r).entry = some e) : Kept s (startRead p k r e c s) := by
  have x := startRead_only p k r e c s
  refine ⟨x.pending rfl, fun h => h.congr (x.ports rfl) (x.csLow rfl) (x.clearLow rfl) ?_, fun hs hr => ?_⟩
  · rw [resetInForce, resetInForce, x.rc rfl]
  · refine ReadsPlaced.of_kept (fun q rd hq => ?_) (joinRead_tidy c p _).reads
    rw [setRead_reads, PerPort.get_set] at hq
    split at hq
    · obtain rfl := Option.some.inj hq
      exact hs r e he
    · exact hr q rd hq

theorem serveReadRecord_kept (p : Port) (body : List Byte) (s : State) : Kept s (serveReadRecord p body s) := by
  have no := fun c => (refuse_tidy p c s).kept
  exact whenReady_cases no fun _ => withBody_cases no fun _ => withRecord_cases no fun _ he => refuseIf_cases no fun _ =>
    withContent_cases no fun _ => refuseIf_cases no fun _ => startRead_kept _ _ _ he

theorem serveOpenRecord_kept (p : Port) (body : List Byte) (s : State) : Kept s (serveOpenRecord p body s) := by
  have no := fun c => (refuse_tidy p c s).kept
  refine whenReady_cases no fun _ => whenSession_cases no <| withBody_cases no fun (r, m) =>
    withRecord_cases no fun e he => refuseIf_cases no fun _ => refuseIf_cases no fun _ => ?_
  cases m with
  | blank => exact ((setSession_tidy _ _ _).trans (respond_tidy _ _ _ _)).kept
  | copy => exact withContent_cases no fun _ => startRead_kept _ _ _ he

/-! ### Frames -/

theorem riseFrame_kept (p : Port) (bytes : List Byte) (extra : Nat) {judge : State → State} (s : State)
    (x : ∀ s, Kept s (judge s)) : Kept s (riseFrame p bytes extra judge s) := by
  have ends := endFrame_tidy p s
  unfold riseFrame
  repeat' split
  · exact ends.kept
  · exact ends.andThen rfl (x _)
  · exact .refl s
  · exact ends.kept
  · exact .refl s

theorem takeFrame_kept (p : Port) (bytes : List Byte) (extra : Nat) {judge : State → State} (part : FramePart)
    (s : State) (x : ∀ s, Kept s (judge s)) : Kept s (takeFrame p bytes extra judge part s) := by
  cases part with
  | whole =>
    refine ((fallFrame_tidy p s).trans (clockFrame_tidy p bytes extra _)).andThen ?_ (riseFrame_kept p bytes extra _ x)
    rw [(clockFrame_only p bytes extra _).dir rfl, (fallFrame_only p s).dir rfl]
  | fall => exact (fallFrame_tidy p s).kept
  | clock => exact (clockFrame_tidy p bytes extra s).kept
  | rise => exact riseFrame_kept p bytes extra s x
  | reply => exact .refl s

theorem takeRequest_kept (c : RequestCode) (p : Port) (tag : Byte) (body : List Byte) (part : FramePart)
    {serve : State → State} (s : State) (x : ∀ s, Kept s (serve s)) :
    Kept s (takeRequest c p tag body part serve s) := by
  have judged : ∀ s, Kept s (judgeRequest p tag body serve s) := fun s => by
    unfold judgeRequest
    repeat' split
    · exact (recordOutcome_tidy p _ s).kept
    · exact (recordOutcome_tidy p _ s).kept
    · exact (acceptRequest_tidy p tag s).andThen rfl (x _)
  have taken := takeFrame_kept p (requestFrameBytes c tag body) 0 part s judged
  have written := taken.then (writeReply_tidy p _)
  unfold takeRequest
  cases part with
  | whole => simp only; split; exacts [taken, written]
  | reply => simp only; split; exacts [written, taken]
  | fall | clock | rise => exact taken

/-! ### Port clear and the resets -/

/-- The clear line falls outside a reset: the port takes no frames, and its transport state is cleared (R163, R179). -/
theorem clearTransport_tidy (p : Port) (s : State) : Tidy s (clearTransport p { s with clearLow := s.clearLow.set p true }) := by
  refine ⟨rfl, fun h => h.atPort (p := p) rfl (fun q hq => ⟨PerPort.get_set_ne _ _ _ _ hq, rfl, ?_⟩)
    ((portOk_iff _ p).mpr ?_), .of_eq rfl⟩
  · exact PerPort.get_set_ne _ _ _ _ hq
  · simp only [clearTransport, setPort_ports, PerPort.get_set_self]
    exact ⟨exchangeOk_none rfl rfl, receiverOk_at_level _ _ _⟩

/-- The clear line falls in a reset, where no port takes frames anyway (R162). -/
theorem clearLow_tidy {p : Port} {s : State} (hr : resetInForce s = true) :
    Tidy s { s with clearLow := s.clearLow.set p true } := by
  refine ⟨rfl, fun h q => (portOk_iff _ q).mpr ?_, .of_eq rfl⟩
  obtain ⟨exchange, idle, busy, taken⟩ := (portOk_iff s q).mp (h q)
  refine ⟨exchange, idle, busy, fun f hf => ?_⟩
  have := taken f hf
  simp [framesTaken, hr] at this

theorem clearPort_tidy (p : Port) (s : State) : Tidy s (clearPort p { s with clearLow := s.clearLow.set p true }) := by
  have reads := (clearTransport_tidy p s).trans (clearRead_tidy p _)
  have engine := (reads.trans ((clearSession_only p _).tidy (by decide))).trans ((detachEntry_only p _).tidy (by decide))
  have locks := (engine.trans ((setResult_only p none _).tidy (by decide))).trans ((clearLocks_only p _).tidy (by decide))
  exact (locks.trans ((leaveWatchSets_only p _).tidy (by decide))).trans ((clearNotices_only p _).tidy (by decide))

/-- The clear line rises and the port finds its chip select at a level (R163). -/
theorem clearRelease_tidy (p : Port) (low : Bool) (s : State) :
    Tidy s (findChipSelect p low { s with clearLow := s.clearLow.set p false }) := by
  refine ⟨rfl, fun h => h.atPort (p := p) rfl (fun q hq => ?_) ((portOk_iff _ p).mpr ?_), .of_eq rfl⟩
  · exact ⟨PerPort.get_set_ne _ _ _ _ hq, PerPort.get_set_ne _ _ _ _ hq, PerPort.get_set_ne _ _ _ _ hq⟩
  · obtain ⟨exchange, -⟩ := (portOk_iff s p).mp (h p)
    simp only [findChipSelect, setReceiver, setCs_ports, setPort_ports, PerPort.get_set_self, setCs_csLow]
    exact ⟨exchange, receiverOk_at_level _ _ _⟩

theorem deviceReset_inForce (src : ResetSource) (cut : PageBytes) (s : State) :
    resetInForce (deviceReset src cut s) = true := by
  cases src <;> simp [deviceReset, resetInForce, addSource]

theorem deviceReset_tidy (src : ResetSource) (cut : PageBytes) (s : State) : Tidy s (deviceReset src cut s) := by
  refine ⟨rfl, fun _ p => (portOk_iff _ p).mpr ?_, fun q rd hq => ?_⟩
  · have port : (deviceReset src cut s).ports.get p = PortIf.reset := PerPort.get_all _ _
    rw [port, deviceReset_inForce]
    exact ⟨exchangeOk_none rfl rfl, fun _ => rfl, by simp, by simp [PortIf.reset]⟩
  · have none : (deviceReset src cut s).reads.get q = none := PerPort.get_all _ _
    simp [none] at hq

/-- The release: every port finds its chip select at a level (R162, R166). -/
theorem release_tidy {x : ResetControl} (csLow : PortSet) (s : State) :
    Tidy s (forPorts (fun p => findChipSelect p (csLow.get p)) (setRc x s)) := by
  refine ⟨rfl, fun h p => (portOk_iff _ p).mpr ?_, .of_eq rfl⟩
  obtain ⟨exchange, -⟩ := (portOk_iff s p).mp (h p)
  have port : (forPorts (fun p => findChipSelect p (csLow.get p)) (setRc x s)).ports.get p =
      { s.ports.get p with receiver := if csLow.get p then .ignoring else .idle } := by cases p <;> rfl
  have cs : (forPorts (fun p => findChipSelect p (csLow.get p)) (setRc x s)).csLow.get p = csLow.get p := by
    cases p <;> rfl
  rw [port, cs]
  exact ⟨exchange, receiverOk_at_level _ _ _⟩

/-- A source that is not the last lets go: the reset stays in force (R162). -/
theorem dropSource_tidy {src : ResetSource} {s : State} (hi : sourceInForce s.rc.sources src = true)
    (hd : dropSource s.rc.sources src ≠ Sources.none) :
    Tidy s (setRc { s.rc with sources := dropSource s.rc.sources src } s) := by
  refine ⟨rfl, fun h => h.congr rfl rfl rfl ?_, .of_eq rfl⟩
  have force : ∀ x : Sources, x ≠ Sources.none → (x.supply.isSome || x.pin || x.restart) = true := by
    rintro ⟨_ | _, _ | _, _ | _⟩ hx <;> first | rfl | exact absurd rfl hx
  have before : s.rc.sources ≠ Sources.none := fun h0 => by
    rw [h0] at hi
    cases src <;> simp [sourceInForce, Sources.none] at hi
  rw [resetInForce, resetInForce, force _ before]
  exact force _ hd

end Sys2Proof.Machine

namespace Sys2Proof.Machine

open Sys2Proof

/-! ### Every command -/

theorem request_kept {c : RequestCode} {p : Port} {tag : Byte} {body : List Byte} {part : FramePart}
    {serve : State → State} {s t : State} (x : ∀ s, Kept s (serve s))
    (h : (.next (takeRequest c p tag body part serve s) : Host.Outcome State Fault Refusal) = .next t) : Kept s t := by
  obtain rfl := Host.Outcome.next.inj h
  exact takeRequest_kept c p tag body part s x

theorem frame_kept {p : Port} {bytes : List Byte} {extra : Nat} {judge : State → State} {part : FramePart}
    {s t : State} (x : ∀ s, Tidy s (judge s))
    (h : (.next (takeFrame p bytes extra judge part s) : Host.Outcome State Fault Refusal) = .next t) : Kept s t := by
  obtain rfl := Host.Outcome.next.inj h
  exact takeFrame_kept p bytes extra part s fun s => (x s).kept

theorem execReadTenureEnd_tidy {pl : Plane} {s t : State} (h : execReadTenureEnd pl s = .next t) : Tidy s t := by
  unfold execReadTenureEnd at h
  repeat' split at h
  all_goals first | contradiction | obtain rfl := Host.Outcome.next.inj h
  · exact ((setRead_none_tidy _ _).trans (endTenure_tidy _ _)).trans (answer_tidy _ _ _ _)
  · exact .refl s
  · exact .refl s
  · exact .refl s
  · exact endTenure_tidy _ _
  · exact .refl s

theorem execOpenCopyLoad_tidy {pl : Plane} {s t : State} (h : execOpenCopyLoad pl s = .next t) : Tidy s t := by
  have ended : ∀ p, Tidy s (endTenure pl (setRead p none s)) := fun p => (setRead_none_tidy _ _).trans (endTenure_tidy _ _)
  unfold execOpenCopyLoad at h
  repeat' split at h
  all_goals first | contradiction | obtain rfl := Host.Outcome.next.inj h
  · exact (ended _).trans (answer_tidy _ _ _ _)
  · exact ((ended _).trans (setSession_tidy _ _ _)).trans (answer_tidy _ _ _ _)
  · exact .refl s
  · exact .refl s
  · exact .refl s
  · exact endTenure_tidy _ _
  · exact .refl s

theorem execEngineStart_tidy {s t : State} (h : execEngineStart s = .next t) : Tidy s t := by
  obtain rfl := Host.Outcome.next.inj h
  repeat' split
  · exact ((setQueue_only _ s).tidy (by decide)).trans ((startEntry_only _ _).tidy (by decide))
  · exact .refl s
  · exact .refl s

/-- An attempt ends, passed or failed (R69). -/
theorem attempt_tidy (e : Entry) (st : EngineStep) (pl : Plane) (page : Nat) (x : PageBytes) (s : State) {P : Prop}
    [Decidable P] : Tidy s (if P then stepPassed e st (leavePage pl page x s) else stepFailed e st (leavePage pl page x s)) := by
  split
  · exact (leavePage_tidy pl page x s).trans (stepPassed_tidy _ _ _)
  · exact (leavePage_tidy pl page x s).trans (stepFailed_tidy _ _ _)

theorem execEraseAttemptDone_tidy {raised : PageBytes} {s t : State} (h : execEraseAttemptDone raised s = .next t) :
    Tidy s t := by
  unfold execEraseAttemptDone at h
  repeat' split at h
  all_goals first | contradiction | obtain rfl := Host.Outcome.next.inj h
  · exact attempt_tidy _ _ _ _ _ s
  · exact .refl s
  · exact .refl s

theorem execProgramAttemptDone_tidy {cleared : PageBytes} {s t : State}
    (h : execProgramAttemptDone cleared s = .next t) : Tidy s t := by
  unfold execProgramAttemptDone at h
  repeat' split at h
  all_goals first | contradiction | obtain rfl := Host.Outcome.next.inj h
  · exact attempt_tidy _ _ _ _ _ s
  · exact .refl s
  · exact .refl s

theorem execInvalidationStep_tidy {cleared : PageBytes} {s t : State} (h : execInvalidationStep cleared s = .next t) :
    Tidy s t := by
  unfold execInvalidationStep at h
  repeat' split at h
  all_goals first | contradiction | obtain rfl := Host.Outcome.next.inj h
  · exact (leavePage_tidy _ _ _ s).trans ((failFault_only _ _).tidy (by decide))
  · exact .refl s
  · exact .refl s

theorem execMountStart_tidy {s t : State} (h : execMountStart s = .next t) : Tidy s t := by
  obtain rfl := Host.Outcome.next.inj h
  split
  · refine Tidy.trans ?_ ((setMount_only _ _).tidy (by decide))
    refine Tidy.trans (Only.tidy (h := { arbiters := true }) (.ofEq rfl) (by decide)) (setRc_tidy ?_)
    rfl
  · exact .refl s

theorem execMountLayoutSelected_tidy {s t : State} (h : execMountLayoutSelected s = .next t) : Tidy s t := by
  have loaded : ∀ x v, Tidy s (setSlots x (setLayout v s)) := fun x v =>
    ((setLayout_only v s).tidy (by decide)).trans ((setSlots_only x _).tidy (by decide))
  obtain rfl := Host.Outcome.next.inj h
  split
  · split
    · exact endMount_tidy _ s
    · exact endMount_tidy _ s
    · rename_i v entries hs
      refine (loaded (entries.map fun e => { Slot.undefined with entry := e }) (some v)).trans ?_
      dsimp only
      split
      · exact (setMount_only _ _).tidy (by decide)
      · exact endMount_tidy _ _
  · exact .refl s

theorem execMountSlotSet_tidy {s t : State} (h : execMountSlotSet s = .next t) : Tidy s t := by
  unfold execMountSlotSet at h
  repeat' split at h
  all_goals first | contradiction | obtain rfl := Host.Outcome.next.inj h
  · exact ((setSlot_only _ _ s).tidy (by decide)).trans (mountOn_tidy _ _)
  · exact .refl s
  · exact endMount_tidy _ s
  · exact .refl s

theorem execSupplyWarningRaised_tidy {s t : State} (h : execSupplyWarningRaised s = .next t) : Tidy s t := by
  obtain rfl := Host.Outcome.next.inj h
  repeat' split
  · exact .refl s
  · exact setRc_tidy rfl
  · exact setRc_tidy rfl
  · have raised : ∀ p u, Tidy u (raiseSupplyWarn p u) := fun p u => (setFlags_only p _ u).tidy (by decide)
    exact (setRc_tidy (x := { s.rc with warning := true }) rfl).trans (Tidy.forPorts raised _)

theorem execPortClear_tidy {p : Port} {s t : State} (h : execPortClear p s = .next t) : Tidy s t := by
  obtain rfl := Host.Outcome.next.inj h
  simp only
  repeat' split
  · exact .refl s
  · exact clearLow_tidy ‹_›
  · exact clearPort_tidy p s

theorem execLeaseExpiry_tidy {r : RecNo} {s t : State} (h : execLeaseExpiry r s = .next t) : Tidy s t := by
  obtain rfl := Host.Outcome.next.inj h
  repeat' split
  · exact Tidy.trans (Only.tidy (h := { reports := true, flags := true }) (.ofEq rfl) (by decide)) (handOn_tidy _ _)
  · exact .refl s
  · exact .refl s

/-- Every command keeps the waiting commands, the transport state and the places of the reads. -/
theorem exec_kept {i : Instr} {s t : State} (h : exec i s = .next t) : Kept s t := by
  cases i with
  | nop p tag body part => exact request_kept (fun s => (serveNop_tidy p body s).kept) h
  | queryRecord p tag body part => exact request_kept (fun s => (serveQueryRecord_tidy p body s).kept) h
  | readRecord p tag body part => exact request_kept (serveReadRecord_kept p body) h
  | deviceStatus p tag body part => exact request_kept (fun s => (serveDeviceStatus_tidy p body s).kept) h
  | openRecord p tag body part => exact request_kept (serveOpenRecord_kept p body) h
  | stage p tag body part => exact request_kept (fun s => (serveStage_tidy p body s).kept) h
  | append p tag body part => exact request_kept (fun s => (serveAppend_tidy p body s).kept) h
  | commit p tag body part => exact request_kept (fun s => (serveCommit_tidy p body s).kept) h
  | abandon p tag body part => exact request_kept (fun s => (serveAbandon_tidy p body s).kept) h
  | fetchCommitResult p tag body part => exact request_kept (fun s => (serveFetchCommitResult_tidy p body s).kept) h
  | lock p tag body part => exact request_kept (fun s => (serveLock_tidy p body s).kept) h
  | unlock p tag body part => exact request_kept (fun s => (serveUnlock_tidy p body s).kept) h
  | fetchLockReport p tag body part => exact request_kept (fun s => (serveFetchLockReport_tidy p body s).kept) h
  | watch p tag body part => exact request_kept (fun s => (serveWatch_tidy p body s).kept) h
  | unwatch p tag body part => exact request_kept (fun s => (serveUnwatch_tidy p body s).kept) h
  | fetchNotice p tag body part => exact request_kept (fun s => (serveFetchNotice_tidy p body s).kept) h
  | acknowledge p tag body part => exact request_kept (fun s => (serveAcknowledge_tidy p body s).kept) h
  | setAttentionMask p tag body part => exact request_kept (fun s => (serveSetAttentionMask_tidy p body s).kept) h
  | format p tag body part => exact request_kept (fun s => (serveFormat_tidy p body s).kept) h
  | define p tag body part => exact request_kept (fun s => (serveDefine_tidy p body s).kept) h
  | delete p tag body part => exact request_kept (fun s => (serveDelete_tidy p body s).kept) h
  | setAccess p tag body part => exact request_kept (fun s => (serveSetAccess_tidy p body s).kept) h
  | restart p tag body part => exact request_kept (fun s => (serveRestart_tidy p body s).kept) h
  | fetch p sent part => exact frame_kept Tidy.refl h
  | poll p sent part => exact frame_kept Tidy.refl h
  | frameError p bytes extra part =>
    simp only [exec, execFrameError] at h
    split at h
    · exact frame_kept (recordOutcome_tidy p _) h
    · exact frame_kept Tidy.refl h
  | readTenureEnd pl => exact Tidy.kept (execReadTenureEnd_tidy h)
  | openCopyLoad pl => exact Tidy.kept (execOpenCopyLoad_tidy h)
  | engineStart => exact Tidy.kept (execEngineStart_tidy h)
  | eraseAttemptDone raised => exact Tidy.kept (execEraseAttemptDone_tidy h)
  | programAttemptDone cleared => exact Tidy.kept (execProgramAttemptDone_tidy h)
  | invalidationStep cleared => exact Tidy.kept (execInvalidationStep_tidy h)
  | timebasePeriodEnd =>
    obtain rfl := Host.Outcome.next.inj h
    exact (Only.tidy (h := { locks := true }) (.ofEq rfl) (by decide)).kept
  | leaseExpiry r => exact Tidy.kept (execLeaseExpiry_tidy h)
  | waitExpiry r p =>
    obtain rfl := Host.Outcome.next.inj h
    split
    · exact (Only.tidy (h := { locks := true, reports := true, flags := true }) (.ofEq rfl) (by decide)).kept
    · exact .refl s
  | supplyWarningRaised => exact Tidy.kept (execSupplyWarningRaised_tidy h)
  | supplyWarningRemoved =>
    obtain rfl := Host.Outcome.next.inj h
    split
    · exact (setRc_tidy (x := { s.rc with warning := false }) rfl).kept
    · exact .refl s
  | portClear p => exact Tidy.kept (execPortClear_tidy h)
  | portClearRelease p csLow =>
    obtain rfl := Host.Outcome.next.inj h
    split
    · exact (clearRelease_tidy p csLow s).kept
    · exact .refl s
  | powerOnReset cut => exact Host.Outcome.next.inj h ▸ (deviceReset_tidy _ cut s).kept
  | supplyReset cut => exact Host.Outcome.next.inj h ▸ (deviceReset_tidy _ cut s).kept
  | pinReset cut =>
    obtain rfl := Host.Outcome.next.inj h
    split
    · exact .refl s
    · exact (deviceReset_tidy _ cut s).kept
  | restartReset cut =>
    obtain rfl := Host.Outcome.next.inj h
    split
    · exact (deviceReset_tidy _ cut s).kept
    · exact .refl s
  | resetRelease straps csLow =>
    obtain rfl := Host.Outcome.next.inj h
    split
    · exact (release_tidy csLow s).kept
    · exact .refl s
  | mountStart => exact Tidy.kept (execMountStart_tidy h)
  | mountLayoutSelected => exact Tidy.kept (execMountLayoutSelected_tidy h)
  | mountSlotSet => exact Tidy.kept (execMountSlotSet_tidy h)
  | sourceLetsGo src =>
    obtain rfl := Host.Outcome.next.inj h
    split
    · rename_i hc
      simp only [Bool.and_eq_true, decide_eq_true_eq] at hc
      obtain ⟨force, rest⟩ := hc
      exact (dropSource_tidy force rest).kept
    · exact .refl s

end Sys2Proof.Machine

namespace Sys2Proof.Machine

open Sys2Proof

/-! ## The array and the transport state at every step (R18, R166, R167, R171, R179) -/

theorem ArrayEffect.arrayOk {s t : State} (x : ArrayEffect s t) (h : ArrayOk s) : ArrayOk t := by
  cases x with
  | same hx =>
    rw [ArrayOk, hx]
    exact h
  | page st p hs hp hx =>
    rw [ArrayOk, hx]
    exact writePage_wf _ _ _ _ hp h

/-- Settles O51: the idling part keeps everything, and so does every command, whatever the rest of the queue. -/
theorem arrayAndTransportStayOk : Obligations.ArrayAndTransportStayOk := by
  intro s s' hs
  rcases step_cases hs with ⟨-, rfl⟩ | ⟨i, rest, -, hx⟩
  · exact ⟨id, id⟩
  · have array : ArrayEffect { s with pending := rest } s' := (exec_effect hx).array
    have kept : Kept { s with pending := rest } s' := exec_kept hx
    exact ⟨array.arrayOk, kept.transport⟩

/-! ## When a command faults (R18; log 8) -/

/-- A read, the engine's step or a slot lies outside the array. -/
inductive Outside (s : State) : Prop
  | read {p rd} (h : s.reads.get p = some rd) (ho : ¬extentInArray rd.basePage (extentPages rd.length) = true)
  | page {e st} (he : s.engine.entry = some e) (hs : s.engine.step = some st)
      (ho : ¬stepPage s st < Config.planePages)
  | slot {r e} (h : (slotOf s r).entry = some e) (ho : ¬extentInArray e.basePage (extentPages e.length) = true)

/-- A command answers a next state, or it faults in a state with something outside the array. -/
inductive Taken (s : State) : Host.Outcome State Fault Refusal → Prop
  | next (t : State) : Taken s (.next t)
  | fault (h : Outside s) : Taken s (.fault .pageOutsideArray)

theorem execReadTenureEnd_taken (pl : Plane) (s : State) : Taken s (execReadTenureEnd pl s) := by
  unfold execReadTenureEnd
  repeat' split
  all_goals first | exact .next _ | exact .fault (.read ‹_› ‹_›)

theorem execOpenCopyLoad_taken (pl : Plane) (s : State) : Taken s (execOpenCopyLoad pl s) := by
  unfold execOpenCopyLoad
  repeat' split
  all_goals first | exact .next _ | exact .fault (.read ‹_› ‹_›)

theorem execEraseAttemptDone_taken (raised : PageBytes) (s : State) : Taken s (execEraseAttemptDone raised s) := by
  unfold execEraseAttemptDone
  repeat' split
  all_goals first | exact .next _ | exact .fault (.page ‹_› ‹_› ‹_›)

theorem execProgramAttemptDone_taken (cleared : PageBytes) (s : State) : Taken s (execProgramAttemptDone cleared s) := by
  unfold execProgramAttemptDone
  repeat' split
  all_goals first | exact .next _ | exact .fault (.page ‹_› ‹_› ‹_›)

theorem execInvalidationStep_taken (cleared : PageBytes) (s : State) : Taken s (execInvalidationStep cleared s) := by
  unfold execInvalidationStep
  repeat' split
  all_goals first | exact .next _ | exact .fault (.page ‹_› ‹_› ‹_›)

theorem execMountSlotSet_taken (s : State) : Taken s (execMountSlotSet s) := by
  unfold execMountSlotSet
  repeat' split
  all_goals first | exact .next _ | exact .fault (.slot ‹_› ‹_›)

theorem exec_taken (i : Instr) (s : State) : Taken s (exec i s) := by
  cases i with
  | readTenureEnd pl => exact execReadTenureEnd_taken pl s
  | openCopyLoad pl => exact execOpenCopyLoad_taken pl s
  | eraseAttemptDone raised => exact execEraseAttemptDone_taken raised s
  | programAttemptDone cleared => exact execProgramAttemptDone_taken cleared s
  | invalidationStep cleared => exact execInvalidationStep_taken cleared s
  | mountSlotSet => exact execMountSlotSet_taken s
  | _ => exact .next _

/-- Settles O2: a command that is taken leaves the waiting commands alone. -/
theorem everyCommandIsTaken : Obligations.EveryCommandIsTaken := by
  intro c s
  have taken := exec_taken c s
  generalize hx : exec c s = x at taken
  cases taken with
  | next t => exact .inl ⟨t, rfl, (exec_kept hx).pending⟩
  | fault h => exact .inr rfl

/-! ## Places (R18, R24, R63, R68, R70, R135, R136) -/

/-- The engine is at a step of its entry, and at none without one. -/
def StepsOk (s : State) : Prop :=
  (∀ e st, s.engine.entry = some e → s.engine.step = some st → StepOk s e st) ∧
  (s.engine.entry = none → s.engine.step = none)

theorem placesOk_iff (s : State) : PlacesOk s ↔ ReadsPlaced s ∧ StepsOk s := Iff.rfl

theorem stepsOk_reset {s : State} (h : s.engine = Engine.reset) : StepsOk s := by
  rw [StepsOk, h]
  exact ⟨fun _ _ he => by simp [Engine.reset] at he, fun _ => rfl⟩

theorem StepOk.congr {s t : State} {e : Entry} {st : EngineStep} (h : StepOk s e st)
    (hl : t.engine.length = s.engine.length) : StepOk t e st := by
  simp only [StepOk, hl]
  exact h

theorem StepsOk.congr {s t : State} (h : StepsOk s) (he : t.engine.entry = s.engine.entry)
    (hs : t.engine.step = s.engine.step) (hl : t.engine.length = s.engine.length) : StepsOk t := by
  rw [StepsOk, he, hs]
  exact ⟨fun e st hE hS => (h.1 e st hE hS).congr hl, h.2⟩

theorem stepsOk_at {s : State} {e : Entry} {st : EngineStep} (he : s.engine.entry = some e)
    (hs : s.engine.step = some st) (h : StepOk s e st) : StepsOk s := by
  refine ⟨fun e' st' hE hS => ?_, fun hE => by simp [he] at hE⟩
  obtain rfl := Option.some.inj (he.symm.trans hE)
  obtain rfl := Option.some.inj (hs.symm.trans hS)
  exact h

/-- The step after one of an entry's steps is one of them. -/
theorem StepOk.nextStep {s : State} {e : Entry} {st st' : EngineStep} (h : StepOk s e st) (hn : nextStep st = some st') :
    StepOk s e st' := by
  obtain ⟨p, w⟩ := e
  obtain ⟨ph, k, m⟩ := st
  obtain ⟨h1, h2, h3⟩ := h
  unfold Machine.nextStep at hn
  split at hn
  · rename_i hk
    obtain rfl := Option.some.inj hn
    exact ⟨Nat.le_add_left 1 k, hk.1, h3⟩
  · cases w with
    | record r c g =>
      cases ph with
      | erase => obtain rfl := Option.some.inj hn; exact ⟨le_rfl, h1.trans h2, h3⟩
      | program | invalidate => simp at hn
      | extentErase | formatFirst | formatSecond => exact h3.elim
    | layout op =>
      obtain ⟨-, -, ⟨r, e, pl, rfl, hph, hm⟩ | ⟨⟨rfl, rfl | rfl⟩ | ⟨hop, rfl⟩ | rfl, hm⟩⟩ :=
        stepOk_layout (st := ⟨ph, k, m⟩) ⟨h1, h2, h3⟩
      · obtain rfl : ph = _ := hph
        cases pl <;> obtain rfl := Option.some.inj hn
        · exact ⟨le_rfl, h1.trans h2, hm⟩
        · exact ⟨le_rfl, by decide, by simp, rfl⟩
      · obtain rfl := Option.some.inj hn
        exact ⟨le_rfl, by decide, rfl⟩
      · obtain rfl := Option.some.inj hn
        exact ⟨le_rfl, by decide, rfl⟩
      · obtain rfl := Option.some.inj hn
        refine ⟨le_rfl, h1.trans h2, ?_⟩
        cases op <;> exact hm
      · simp at hn

/-- The first step of an entry is one of its steps (R68, R135, R136). -/
theorem stepsOk_started {s t : State} {e : Entry} (h : Started s e t.engine) : StepsOk t := by
  generalize hE : t.engine = E at h
  obtain ⟨p, w⟩ := e
  cases h with
  | failed => exact stepsOk_reset hE
  | record hw hx =>
    obtain rfl : w = _ := hw
    refine stepsOk_at (by rw [hE]; rfl) (by rw [hE]; rfl) ⟨le_rfl, extentPages_pos _, ?_⟩
    rw [hE]
    rfl
  | @layout op hw hc =>
    obtain rfl : w = _ := hw
    refine stepsOk_at (by rw [hE]; rfl) (by rw [hE]; rfl) ?_
    cases op with
    | format => exact ⟨le_rfl, by decide, rfl⟩
    | define r e =>
      refine ⟨le_rfl, extentPages_pos _, ?_⟩
      rw [hE]
      rfl
    | delete | setAccess => exact ⟨le_rfl, (by decide : 1 ≤ 25), by simp, rfl⟩

theorem StepsOk.goesOn {s t : State} (h : StepsOk s) {e : Entry} {st st' : EngineStep} {x : PageBytes}
    (g : GoesOn s e st x st' t) : StepsOk t := by
  have ok := h.1 e st g.page.entry g.page.step
  refine stepsOk_at (g.work.entry.trans g.page.entry) g.step (StepOk.congr (s := s) ?_ g.work.length)
  cases g.moves with
  | advances hx hn => exact ok.nextStep hn
  | again hx hp hs => rwa [hs]
  | retreats he hx hp hs =>
    subst he hs
    exact ⟨le_rfl, ok.1.trans ok.2.1, trivial⟩

theorem StepsOk.of_effect {s t : State} {i : Instr} (h : StepsOk s) (hi : DirectoryInv s) (x : Effect s i t) :
    StepsOk t := by
  have kept : t.engine = s.engine → StepsOk t := fun hE => h.congr (by rw [hE]) (by rw [hE]) (by rw [hE])
  cases x with
  | quiet q => exact h.congr q.work.entry q.step q.work.length
  | reset src cut => exact stepsOk_reset rfl
  | start hq ha => exact stepsOk_started start_engine
  | advances a hx hn => exact h.goesOn (goesOn_askStep 1 a (.advances hx hn))
  | completes a hp hx hn => exact stepsOk_reset (completeEntry_idle (a.kept hi).1 (a.kept hi).2)
  | again n a hx hp => exact h.goesOn (goesOn_askStep n a (.again hx hp rfl))
  | retreats a hx hp => exact h.goesOn (goesOn_askStep 1 a (.retreats rfl hx hp rfl))
  | fails a hx => exact stepsOk_reset (failFault_engine _ _)
  | mountStarts hd hm ht hx => exact kept (hx.engine rfl)
  | mountEmpty d hm hd => exact kept ((endMount_only d s).engine rfl)
  | mountLayout hm hs tail => exact kept tail.engine
  | mountSlot hm he tail => exact kept tail.engine
  | mountDone hm tail => exact kept tail.engine

theorem DirectoryInv.slotsPlaced {s : State} (h : DirectoryInv s) : SlotsPlaced s := fun _ _ he => by
  obtain ⟨-, -, -, hb⟩ := (placementOk_iff _ _).mp (h.place he)
  exact decide_eq_true hb

/-- With the directory in order, nothing lies outside the array (R18, R24). -/
theorem not_outside {s : State} (hi : DirectoryInv s) (hp : PlacesOk s) : ¬Outside s := by
  intro h
  cases h with
  | read h ho => exact ho (hp.1 _ _ h)
  | slot h ho => exact ho (hi.slotsPlaced _ _ h)
  | @page e st he hs ho =>
    refine ho (show stepPage s st < 2048 from ?_)
    cases step_site hi hp he hs with
    | record hle hpl lo hh =>
      obtain ⟨-, -, -, hb⟩ := (placementOk_iff _ _).mp (hi.place hle)
      omega
    | define hph lo hh =>
      obtain ⟨-, hplace, -⟩ := hi.defineLink he
      obtain ⟨-, -, -, hb⟩ := (placementOk_iff _ _).mp hplace
      omega
    | layout hph hh => omega

/-- Settles O57: reads and steps keep their places, and a fault needs a place outside the array. -/
theorem noPageOutsideTheArray : Obligations.NoPageOutsideTheArray := by
  intro s hi hp
  refine ⟨fun s' hs => ?_, fun i hx => ?_⟩
  · rcases step_cases hs with ⟨-, rfl⟩ | ⟨i, rest, -, hx⟩
    · exact hp
    · have hi' : DirectoryInv { s with pending := rest } := hi
      have reads : ReadsPlaced s' := (exec_kept hx).reads hi'.slotsPlaced hp.1
      have steps : StepsOk s' := StepsOk.of_effect (s := { s with pending := rest }) hp.2 hi' (exec_effect hx)
      exact (placesOk_iff s').mpr ⟨reads, steps⟩
  · have taken := exec_taken i s
    rw [hx] at taken
    cases taken with
    | fault h => exact not_outside hi hp h

end Sys2Proof.Machine

namespace Sys2Proof.Machine

open Sys2Proof

/-! ## The arbiters (R33, R34) -/

/-- The place of a port in the rotation that begins after another (R34). -/
def rotationRank (pointer p : Port) : Nat := (portIndex p + 3 - portIndex pointer) % 4

theorem rotationRank_next (p : Port) : rotationRank p (nextPort p) = 0 ∧ rotationRank p (nextPort (nextPort p)) = 1 ∧
    rotationRank p (nextPort (nextPort (nextPort p))) = 2 ∧ rotationRank p p = 3 := by
  cases p <;> decide

theorem port_in_rotation (p q : Port) :
    q = nextPort p ∨ q = nextPort (nextPort p) ∨ q = nextPort (nextPort (nextPort p)) ∨ q = p := by
  cases p <;> cases q <;> decide

/-- The rotation finds the member of least rank. -/
theorem firstAfter_of_least {pointer p : Port} {x : PortSet} (hp : x.get p = true)
    (least : ∀ q, x.get q = true → q ≠ p → rotationRank pointer p < rotationRank pointer q) :
    firstAfter pointer x = some p := by
  have before : ∀ q, rotationRank pointer q < rotationRank pointer p → ¬x.get q = true := fun q hq hx => by
    have := least q hx fun h => by simp [h] at hq
    omega
  obtain ⟨r1, r2, r3, r4⟩ := rotationRank_next pointer
  simp only [firstAfter]
  rcases port_in_rotation pointer p with rfl | rfl | rfl | rfl
  · rw [if_pos hp]
  · rw [if_neg (before _ (by omega)), if_pos hp]
  · rw [if_neg (before _ (by omega)), if_neg (before _ (by omega)), if_pos hp]
  · rw [if_neg (before _ (by omega)), if_neg (before _ (by omega)), if_neg (before _ (by omega)), if_pos hp]

theorem firstAfter_empty (p : Port) : firstAfter p PortSet.empty = none := by cases p <;> rfl

theorem grantRead_eq {s : State} {p : Port} {rd : Read} (pl : Plane) (h : s.reads.get p = some rd) :
    grantRead pl p s = { s with
      arbiters := s.arbiters.set pl { s.arbiters.get pl with
        holder := .read p, pointer := p, waiting := (s.arbiters.get pl).waiting.set p false }
      reads := s.reads.set p (some { rd with phase := .reading }) } := by
  rw [grantRead, setArbiter_reads, h]
  rfl

theorem joinRead_of_free {s : State} {pl : Plane} (p : Port) (h : (s.arbiters.get pl).holder = .none) :
    joinRead pl p s = grantRead pl p s := if_pos h

theorem joinRead_of_held {s : State} {pl : Plane} (p : Port) (h : (s.arbiters.get pl).holder ≠ .none) :
    joinRead pl p s =
      setArbiter pl { s.arbiters.get pl with waiting := (s.arbiters.get pl).waiting.set p true } s := if_neg h

theorem joinEngine_of_free {s : State} {pl : Plane} (h : (s.arbiters.get pl).holder = .none) :
    joinEngine pl s = setArbiter pl { s.arbiters.get pl with holder := .engine } s := if_pos h

theorem joinEngine_of_held {s : State} {pl : Plane} (h : (s.arbiters.get pl).holder ≠ .none) :
    joinEngine pl s = setArbiter pl { s.arbiters.get pl with engineWaiting := true } s := if_neg h

theorem endTenure_of_read {s : State} {pl : Plane} {p : Port}
    (h : firstAfter (s.arbiters.get pl).pointer (s.arbiters.get pl).waiting = some p) :
    endTenure pl s = grantRead pl p s := by
  simp only [endTenure, arbiterOf, h]

theorem endTenure_of_none {s : State} {pl : Plane}
    (h : firstAfter (s.arbiters.get pl).pointer (s.arbiters.get pl).waiting = none) :
    endTenure pl s = if (s.arbiters.get pl).engineWaiting then
      setArbiter pl { s.arbiters.get pl with holder := .engine, engineWaiting := false } s
    else setArbiter pl { s.arbiters.get pl with holder := .none } s := by
  simp only [endTenure, arbiterOf, h]
  rfl

/-- Settles O15: a grant by the rotation is one to the waiting read of least rank. -/
theorem planesAreGranted : Obligations.PlanesAreGranted := by
  intro s pl
  refine ⟨fun p rd hrd => ⟨fun hf => ?_, fun hh => ?_⟩, fun hf => ?_, fun hh => ?_, fun p rd hw hrd least => ?_,
    fun hw he => ?_, fun hw he => ?_⟩
  · exact (joinRead_of_free p hf).trans (grantRead_eq pl hrd)
  · exact joinRead_of_held p hh
  · exact joinEngine_of_free hf
  · exact joinEngine_of_held hh
  · rw [endTenure_of_read (firstAfter_of_least hw least), grantRead_eq pl hrd]
  · rw [endTenure_of_none (by rw [hw, firstAfter_empty]), if_pos he]
    rfl
  · rw [endTenure_of_none (by rw [hw, firstAfter_empty]), if_neg (by simp [he])]
    rfl

/-! ## The attempts of a page step (R20, R21, R69) -/

theorem attemptUnderWay_of {s : State} {st : EngineStep} (hold : (s.arbiters.get (stepPlane s st)).holder = .engine)
    (hs : s.engine.state = phaseState st.phase) : attemptUnderWay s st = true := by
  simp [attemptUnderWay, arbiterOf, hold, hs]

/-- The end of an erase attempt on a page of the array, in the words of `stepOld`. -/
theorem exec_eraseAttemptDone {s : State} (raised : PageBytes) {e : Entry} {st : EngineStep}
    (he : s.engine.entry = some e) (hst : s.engine.step = some st) (hw : attemptUnderWay s st = true)
    (hph : phaseState st.phase = .erase) :
    exec (.eraseAttemptDone raised) s =
      if stepPage s st < Config.planePages then
        .next (if eraseAttempt (stepOld s st) raised = erasedPage then
            stepPassed e st (stepLeft s st (eraseAttempt (stepOld s st) raised))
          else stepFailed e st (stepLeft s st (eraseAttempt (stepOld s st) raised)))
      else .fault .pageOutsideArray := by
  simp only [exec, execEraseAttemptDone, he, hst, hw, hph, decide_true, Bool.and_self, if_true, stepOld]
  rfl

theorem exec_programAttemptDone {s : State} (cleared : PageBytes) {e : Entry} {st : EngineStep}
    (he : s.engine.entry = some e) (hst : s.engine.step = some st) (hw : attemptUnderWay s st = true)
    (hph : st.phase = .program) :
    exec (.programAttemptDone cleared) s =
      if stepPage s st < Config.planePages then
        .next (if programAttempt (stepOld s st) (stepContent s st) cleared = stepContent s st then
            stepPassed e st (stepLeft s st (programAttempt (stepOld s st) (stepContent s st) cleared))
          else stepFailed e st (stepLeft s st (programAttempt (stepOld s st) (stepContent s st) cleared)))
      else .fault .pageOutsideArray := by
  simp only [exec, execProgramAttemptDone, he, hst, hw, hph, decide_true, Bool.and_self, if_true, stepOld]
  rfl

theorem stepPassed_of_some {st st' : EngineStep} (e : Entry) (s : State) (hn : nextStep st = some st') :
    stepPassed e st s = askStep st' 1 s := by
  simp only [stepPassed, hn]

theorem stepFailed_again (e : Entry) {s : State} (st : EngineStep) (x : PageBytes) (h : s.engine.attempt < 3) :
    stepFailed e st (stepLeft s st x) = askStep st (s.engine.attempt + 1) (stepLeft s st x) := by
  rw [stepFailed, leavePage_engine]
  exact if_pos h

/-- Within a phase the step after page k is page k + 1; past its last page the next phase begins, if there is one. -/
theorem nextStep_ite {ph : Phase} {k m : Nat} {next : Option EngineStep} (hp : ph ≠ .invalidate)
    (h : ¬(k < m ∧ ph ≠ .invalidate) → nextStep ⟨ph, k, m⟩ = next) :
    nextStep ⟨ph, k, m⟩ = if k < m then some ⟨ph, k + 1, m⟩ else next := by
  split
  · exact if_pos ⟨‹_›, hp⟩
  · exact h fun hk => absurd hk.1 ‹_›

theorem nextStep_ite_some {ph : Phase} {k m : Nat} {next : EngineStep} (hp : ph ≠ .invalidate)
    (h : ¬(k < m ∧ ph ≠ .invalidate) → nextStep ⟨ph, k, m⟩ = some next) :
    nextStep ⟨ph, k, m⟩ = some (if k < m then ⟨ph, k + 1, m⟩ else next) :=
  (nextStep_ite hp h).trans (apply_ite some _ _ _).symm

theorem formatFirstPlane_of_p0 {s : State} (h : ∃ g, s.dir.layout = some ⟨.p0, g⟩) : formatFirstPlane s = .p1 := by
  obtain ⟨g, h⟩ := h
  simp only [formatFirstPlane, layoutCurrent, h, Option.map_some]

theorem formatFirstPlane_of_not_p0 {s : State} (h : ¬∃ g, s.dir.layout = some ⟨.p0, g⟩) : formatFirstPlane s = .p0 := by
  simp only [formatFirstPlane, layoutCurrent]
  cases hl : s.dir.layout with
  | none => rfl
  | some v =>
    obtain ⟨c, g⟩ := v
    cases c with
    | p0 => exact absurd ⟨g, hl⟩ h
    | p1 => rfl

/-- The end of an erase attempt, on a page of the array (R20, R69). -/
theorem eraseAttempt_ends {s : State} (raised : PageBytes) {e : Entry} {st : EngineStep}
    (he : s.engine.entry = some e) (hst : s.engine.step = some st) (hw : attemptUnderWay s st = true)
    (hph : phaseState st.phase = .erase) (hp : stepPage s st < Config.planePages) :
    (∀ st', eraseAttempt (stepOld s st) raised = erasedPage → nextStep st = some st' →
      exec (.eraseAttemptDone raised) s = .next (askStep st' 1 (stepLeft s st (eraseAttempt (stepOld s st) raised)))) ∧
    (eraseAttempt (stepOld s st) raised ≠ erasedPage → s.engine.attempt < 3 →
      exec (.eraseAttemptDone raised) s =
        .next (askStep st (s.engine.attempt + 1) (stepLeft s st (eraseAttempt (stepOld s st) raised)))) := by
  rw [exec_eraseAttemptDone raised he hst hw hph, if_pos hp]
  refine ⟨fun st' hx hn => ?_, fun hx ha => ?_⟩
  · rw [if_pos hx, stepPassed_of_some _ _ hn]
  · rw [if_neg hx, stepFailed_again e st _ ha]

/-- The end of a program attempt, on a page of the array (R21, R69). -/
theorem programAttempt_ends {s : State} (cleared : PageBytes) {e : Entry} {st : EngineStep}
    (he : s.engine.entry = some e) (hst : s.engine.step = some st) (hw : attemptUnderWay s st = true)
    (hph : st.phase = .program) (hp : stepPage s st < Config.planePages) :
    (∀ st', programAttempt (stepOld s st) (stepContent s st) cleared = stepContent s st → nextStep st = some st' →
      exec (.programAttemptDone cleared) s =
        .next (askStep st' 1 (stepLeft s st (programAttempt (stepOld s st) (stepContent s st) cleared)))) ∧
    (programAttempt (stepOld s st) (stepContent s st) cleared ≠ stepContent s st → s.engine.attempt < 3 →
      exec (.programAttemptDone cleared) s = .next (askStep st (s.engine.attempt + 1)
        (stepLeft s st (programAttempt (stepOld s st) (stepContent s st) cleared)))) := by
  rw [exec_programAttemptDone cleared he hst hw hph, if_pos hp]
  refine ⟨fun st' hx hn => ?_, fun hx ha => ?_⟩
  · rw [if_pos hx, stepPassed_of_some _ _ hn]
  · rw [if_neg hx, stepFailed_again e st _ ha]

/-- Settles O36: the attempt, the order of the erase steps, and their planes and pages. -/
theorem eraseAttemptsEnd : Obligations.EraseAttemptsEnd := by
  refine ⟨?_, fun k m => ?_, fun s j m => ?_⟩
  · rintro s raised e st pl page x he hst hstate hph rfl rfl hold rfl
    have hw : attemptUnderWay s st = true := attemptUnderWay_of hold (hstate.trans hph.symm)
    refine ⟨fun hp => ?_, fun hp => ?_⟩
    · rw [exec_eraseAttemptDone raised he hst hw hph]
      exact if_neg (Nat.not_lt.mpr hp)
    · obtain ⟨passes, again⟩ := eraseAttempt_ends raised he hst hw hph hp
      obtain ⟨st', hn⟩ := nextStep_erase hph
      exact ⟨passes, again, by simp [hn], eraseAttempt_keeps _ raised, eraseAttempt_byte0_first _ raised,
        memRead_writePage_outside _ _ _ _, readPage_writePage _ _ _ _ hp⟩
  · exact ⟨nextStep_ite_some (by simp) fun h => if_neg h, nextStep_ite_some (by simp) fun h => if_neg h,
      nextStep_ite_some (by simp) fun h => if_neg h, nextStep_ite_some (by simp) fun h => if_neg h,
      nextStep_ite_some (by simp) fun h => if_neg h⟩
  · refine ⟨fun pl => ⟨rfl, rfl⟩, fun h => ?_, fun h => ?_, rfl, rfl, fun c hc => ?_, fun p r cond g he => ?_,
      fun p op he => ?_⟩
    · simp only [stepPlane, formatFirstPlane_of_p0 h]
      exact ⟨trivial, rfl⟩
    · simp only [stepPlane, formatFirstPlane_of_not_p0 h]
      exact ⟨trivial, rfl⟩
    · simp only [stepPlane, hc, Option.getD_some]
    · simp only [stepPage, areaBase_record he, Nat.add_sub_cancel]
    · simp only [stepPage, areaBase_layout he, Nat.add_sub_cancel, Nat.zero_add]

/-! ## What a program step programs (R68, R135) -/

/-- A byte of a page of an image, 0xFF past the image's end. -/
theorem imagePage_getD (image : List Byte) (j : Nat) (i : Fin 32) :
    (imagePage image j).get i = image.getD (32 * j + i.val) 0xFF := by
  have hi := i.isLt
  simp only [imagePage, Table.get, Table.ofList, List.getElem_take, List.getElem_append, List.length_drop,
    List.getElem_drop, List.getElem_replicate, List.getD_eq_getElem?_getD]
  split
  · rw [List.getElem?_eq_getElem (by omega), Option.getD_some]
  · rw [List.getElem?_eq_none (by omega), Option.getD_none]
    rfl

theorem entryImage_of_data {s : State} {p : Port} {r : RecNo} {cond : Condition} {g : Gen} {b : Table 248 Byte}
    (he : s.engine.entry = some ⟨p, .record r cond g⟩) (hb : s.engine.buffer = .data b) :
    entryImage s = recordImage r s.engine.length (s.engine.target.getD .p0) s.engine.newGen b.cells := by
  simp only [entryImage, hb, he]

theorem entryImage_of_image {s : State} {b : Table 800 Byte} (hb : s.engine.buffer = .image b) :
    entryImage s = b.cells := by
  simp only [entryImage, hb]

theorem stepContent_get (s : State) (ph : Phase) (k m : Nat) (i : Fin 32) :
    (stepContent s ⟨ph, k, m⟩).get i = (entryImage s).getD ((if k = m then 0 else 32 * k) + i.val) 0xFF := by
  rw [stepContent, imagePage_getD]
  split <;> rfl

/-- The page of a program step, from the first page of its area. -/
theorem stepPage_program_eq (s : State) (k m : Nat) :
    stepPage s ⟨.program, k, m⟩ = areaBase s + (if k = m then 0 else k) := by
  simp only [stepPage]
  split <;> rfl

/-- Settles O37: the attempt, the order of the program steps, and their planes, pages and contents. -/
theorem programAttemptsEnd : Obligations.ProgramAttemptsEnd := by
  refine ⟨?_, fun k m => ⟨nextStep_ite (by simp) fun h => if_neg h, if_neg (by simp)⟩, fun s c k m i hc h1 hk => ?_⟩
  · rintro s cleared e st pl page new x he hst hstate hph rfl rfl rfl hold rfl
    have hw : attemptUnderWay s st = true := attemptUnderWay_of hold (by rw [hstate, hph]; rfl)
    refine ⟨fun hp => ?_, fun hp => ?_⟩
    · rw [exec_programAttemptDone cleared he hst hw hph]
      exact if_neg (Nat.not_lt.mpr hp)
    · obtain ⟨passes, again⟩ := programAttempt_ends cleared he hst hw hph hp
      exact ⟨fun hx hlt => passes _ hx (if_pos ⟨hlt, by simp [hph]⟩), again, programAttempt_and_old _ _ cleared,
        programAttempt_keeps_ones _ _ cleared, programAttempt_done_before_byte0 _ _ cleared,
        memRead_writePage_outside _ _ _ _, readPage_writePage _ _ _ _ hp⟩
  · refine ⟨by simp only [stepPlane, hc, Option.getD_some], by simp only [stepPlane, hc, Option.getD_some],
      fun p r cond g he => ⟨by simp only [stepPage, areaBase_record he], ?_, fun b hb => ?_⟩,
      fun p op he => ⟨?_, fun b hb => ?_⟩⟩
    · rw [stepPage_program_eq, areaBase_record he]
    · rw [stepContent_get, entryImage_of_data he hb, hc, Option.getD_some]
    · rw [stepPage_program_eq, areaBase_layout he, Nat.zero_add]
    · rw [stepContent_get, entryImage_of_image hb]

/-! ## What a reset cuts off (R22) -/

theorem attemptUnderWay_holder {s : State} {st : EngineStep} (h : attemptUnderWay s st = true) :
    (s.arbiters.get (stepPlane s st)).holder = .engine :=
  of_decide_eq_true (Bool.and_eq_true_iff.mp h).1

theorem cutStep_of_idle {s : State} (cut : PageBytes)
    (h : s.engine.step = none ∨ ∀ pl, (s.arbiters.get pl).holder ≠ .engine) : cutStep cut s = s.array := by
  unfold cutStep
  split
  · rename_i st hs
    refine if_neg fun hw => ?_
    rcases h with h | h
    · simp [hs] at h
    · exact h _ (attemptUnderWay_holder (Bool.and_eq_true_iff.mp hw).1)
  · rfl

/-- What a step leaves of its page when a reset cuts it off (R22). -/
inductive CutPage (s : State) (st : EngineStep) : PageBytes → Prop
  | untouched : CutPage s st (stepOld s st)
  | erase (cut : PageBytes) (h : phaseState st.phase = .erase) : CutPage s st (eraseCut (stepOld s st) cut)
  | program (cut : PageBytes) (h : st.phase = .program) :
      CutPage s st (programAttempt (stepOld s st) (stepContent s st) cut)
  | invalidate (cut : PageBytes) (h : st.phase = .invalidate) :
      CutPage s st (programAttempt (stepOld s st) invalidationContent cut)

/-- A reset leaves the array, or writes the page of the step under way. -/
theorem cutStep_cases (cut : PageBytes) {s : State} {st : EngineStep} (hs : s.engine.step = some st) :
    cutStep cut s = s.array ∨
      ∃ x, CutPage s st x ∧ cutStep cut s = writePage s.array (stepPlane s st) (stepPage s st) x := by
  obtain ⟨ph, k, m⟩ := st
  simp only [cutStep, hs]
  split
  · refine .inr ⟨_, ?_, rfl⟩
    cases ph with
    | program => exact .program cut rfl
    | invalidate => exact .invalidate cut rfl
    | extentErase | formatFirst | formatSecond | erase => exact .erase cut rfl
  · exact .inl rfl

theorem cutStep_page (cut : PageBytes) {s : State} {st : EngineStep} (hs : s.engine.step = some st)
    (hp : stepPage s st < Config.planePages) (ha : ArrayOk s) :
    CutPage s st (readPage (cutStep cut s) (stepPlane s st) (stepPage s st)) := by
  rcases cutStep_cases cut hs with h | ⟨x, hx, h⟩
  · rw [h]
    exact .untouched
  · rwa [h, readPage_writePage _ _ _ _ hp ha]

theorem eraseCut_keeps (old cut : PageBytes) (i : Fin 32) :
    (eraseCut old cut).get i ||| old.get i = (eraseCut old cut).get i := by
  simp only [eraseCut]
  split
  · rw [Table.get_zipWith, BitVec.or_assoc, BitVec.or_comm (cut.get i), ← BitVec.or_assoc, BitVec.or_self]
  · exact BitVec.or_self

/-- A program attempt changes no byte whose new content is 0xFF. -/
theorem programAttempt_of_ones (old new cleared : PageBytes) {i : Fin 32} (h : new.get i = 0xFF) :
    (programAttempt old new cleared).get i = old.get i := by
  have ones := programAttempt_keeps_ones old new cleared i
  have all : old.get i &&& 0xFF = old.get i := BitVec.and_allOnes
  rw [h, all, BitVec.and_comm, programAttempt_and_old] at ones
  exact ones

theorem invalidationContent_get {i : Fin 32} (h : i ≠ 0) : invalidationContent.get i = 0xFF := by
  rw [invalidationContent, Table.get_set_ne _ _ _ _ h.symm, erasedPage_get]

namespace CutPage

variable {s : State} {st : EngineStep} {x : PageBytes} (h : CutPage s st x)

include h

theorem erase_cases (hph : phaseState st.phase = .erase) : x = stepOld s st ∨ x.get 0 = 0xFF := by
  cases h with
  | untouched => exact .inl rfl
  | erase cut => exact eraseCut_cases _ cut
  | program cut hp | invalidate cut hp => simp [hp, phaseState] at hph

theorem erase_keeps (hph : phaseState st.phase = .erase) (i : Fin 32) :
    x.get i ||| (stepOld s st).get i = x.get i := by
  cases h with
  | untouched => exact BitVec.or_self
  | erase cut => exact eraseCut_keeps _ cut i
  | program cut hp | invalidate cut hp => simp [hp, phaseState] at hph

/-- Byte 0 is programmed last. -/
theorem program_byte0_last (hph : st.phase = .program) {i : Fin 32} (h0 : x.get 0 ≠ (stepOld s st).get 0) (hi : i ≠ 0) :
    x.get i = (stepOld s st).get i &&& (stepContent s st).get i := by
  cases h with
  | untouched => exact absurd rfl h0
  | program cut => exact programAttempt_done_before_byte0 _ _ cut h0 i hi
  | erase cut hp => simp [hph, phaseState] at hp
  | invalidate cut hp => simp [hph] at hp

/-- Outside an erase no bit is set. -/
theorem clears (hph : phaseState st.phase ≠ .erase) (i : Fin 32) : x.get i &&& (stepOld s st).get i = x.get i := by
  cases h with
  | untouched => exact BitVec.and_self
  | program cut | invalidate cut => exact programAttempt_and_old _ _ cut i
  | erase cut hp => exact absurd hp hph

theorem program_keeps_ones (hph : st.phase = .program) (i : Fin 32) :
    (stepOld s st).get i &&& (stepContent s st).get i &&& x.get i =
      (stepOld s st).get i &&& (stepContent s st).get i := by
  cases h with
  | untouched => rw [BitVec.and_assoc, BitVec.and_comm (stepContent s st |>.get i), ← BitVec.and_assoc, BitVec.and_self]
  | program cut => exact programAttempt_keeps_ones _ _ cut i
  | erase cut hp => simp [hph, phaseState] at hp
  | invalidate cut hp => simp [hph] at hp

theorem invalidate_byte0_only (hph : st.phase = .invalidate) {i : Fin 32} (hi : i ≠ 0) :
    x.get i = (stepOld s st).get i := by
  cases h with
  | untouched => rfl
  | invalidate cut => exact programAttempt_of_ones _ _ cut (invalidationContent_get hi)
  | erase cut hp => simp [hph, phaseState] at hp
  | program cut hp => simp [hph] at hp

end CutPage

/-- Settles O45: what a reset leaves is the page of the step cut off, whose bounds are `CutPage`'s. -/
theorem resetsCutOnePage : Obligations.ResetsCutOnePage := by
  refine fun s cut => ⟨cutStep_of_idle cut, ?_⟩
  rintro st pl page hs rfl rfl hp
  refine ⟨fun a ha => ?_, fun ha => ?_⟩
  · rcases cutStep_cases cut hs with h | ⟨x, -, h⟩
    · rw [h]
    · rw [h, memRead_writePage_outside _ _ _ _ _ ha]
  · have left := cutStep_page cut hs hp ha
    refine ⟨left.erase_cases, left.erase_keeps, fun hph i => ⟨left.program_byte0_last hph, left.clears ?_ i,
      left.program_keeps_ones hph i⟩, fun hph i => ⟨left.invalidate_byte0_only hph, left.clears ?_ i⟩⟩
    · simp [hph, phaseState]
    · simp [hph, phaseState]

end Sys2Proof.Machine

namespace Sys2Proof.Machine

open Sys2Proof

/-! ## How stored images are classified (R29, R30) -/

/-- The first bytes of what was read are all 0xFF. -/
theorem all_blank_iff (image : List Byte) (n : Nat) :
    (image.take n).all (fun b => b = 0xFF) = true ↔ ∀ i, i < n → image.getD i 0xFF = 0xFF := by
  simp only [List.all_eq_true, decide_eq_true_eq]
  constructor
  · intro h i hi
    by_cases hl : i < image.length
    · rw [List.getD_eq_getElem _ _ hl]
      exact h _ (List.mem_take_iff_getElem.mpr ⟨i, by omega, rfl⟩)
    · rw [List.getD_eq_default _ _ (by omega)]
  · intro h x hx
    obtain ⟨i, hi, rfl⟩ := List.mem_take_iff_getElem.mp hx
    rw [← h i (by omega), List.getD_eq_getElem]

/-- What begins with another byte than 0xFF is not blank. -/
theorem not_all_blank {image : List Byte} {n : Nat} {v : Byte} (hn : 0 < n) (hv : image.getD 0 0xFF = v) (h : v ≠ 0xFF) :
    ¬(image.take n).all (fun b => b = 0xFF) = true := fun hall =>
  h (hv.symm.trans ((all_blank_iff image n).mp hall 0 hn))

theorem planeByte_eq (c : Plane) : planeByte c = if c = .p0 then 0 else 1 := by cases c <;> rfl

theorem classifyRecord_valid_iff (r : RecNo) (length : Nat) (c : Plane) (image : List Byte) (g : Gen) :
    classifyRecord r length c image = .valid g ↔
      byteAt image 0 = 0x3C ∧ byteAt image 1 = recByte r ∧ byteAt image 2 = natByte length ∧
      byteAt image 3 = planeByte c ∧ g = imageGeneration image ∧ g ≠ 0 ∧
      genOfBytes (byteAt image 6) (byteAt image 7) = crc16 (image.take 6 ++ imageData image 0 length) := by
  simp only [classifyRecord]
  constructor
  · intro h
    split at h
    · contradiction
    · split at h
      · rename_i hv
        obtain ⟨h0, h1, h2, h3, hg, hc⟩ := hv
        obtain rfl := RecordClass.valid.inj h
        exact ⟨h0, h1, h2, h3, rfl, hg, hc⟩
      · contradiction
  · rintro ⟨h0, h1, h2, h3, rfl, hg, hc⟩
    rw [if_neg (not_all_blank (by decide) h0 (by decide)), if_pos ⟨h0, h1, h2, h3, hg, hc⟩]

theorem classifyRecord_noImage_iff (r : RecNo) (length : Nat) (c : Plane) (image : List Byte) :
    classifyRecord r length c image = .noImage ↔ ∀ i, i < 8 → image.getD i 0xFF = 0xFF := by
  rw [← all_blank_iff]
  simp only [classifyRecord]
  split
  · rename_i h
    simp only [h]
  · rename_i h
    split <;> simp only [h, reduceCtorEq]

/-! ### Layout entries, byte by byte (R28, R30, R183) -/

theorem portSetOfByte_iff (b : Byte) (x : PortSet) : portSetOfByte b = some x ↔ b = portSetByte x := by
  have spelled : ∀ b : Byte, b.toNat < 16 →
      b = portSetByte ⟨b.getLsbD 0, b.getLsbD 1, b.getLsbD 2, b.getLsbD 3⟩ := by decide +kernel
  constructor
  · intro h
    unfold portSetOfByte at h
    split at h
    · rw [← Option.some.inj h]
      exact spelled b ‹_›
    · contradiction
  · rintro rfl
    exact portSetOfByte_portSetByte x

/-- The flags of a defined entry: bit 0 set, bit 1 where the record is guarded, no other. -/
theorem entryFlags_iff (b : Byte) (guarded : Bool) :
    b.toNat < 4 ∧ b.getLsbD 0 = true ∧ b.getLsbD 1 = guarded ↔ b = if guarded then 3 else 1 := by
  revert b guarded
  decide +kernel

/-- The fields of a stored layout entry, defined and legal. -/
def EntryFields (x : Nat → Byte) (e : LayoutEntry) : Prop :=
  x 0 = (if e.guarded then 3 else 1) ∧ e.length = (x 1).toNat ∧ e.basePage = (genOfBytes (x 2) (x 3)).toNat ∧
  x 4 = portSetByte e.readSet ∧ x 5 = portSetByte e.writeSet ∧ placementOk e.length e.basePage = true

theorem parseLayoutEntry_iff (x : Nat → Byte) (o : Option LayoutEntry) :
    parseLayoutEntry [x 0, x 1, x 2, x 3, x 4, x 5] = some o ↔
      (o = none ∧ ∀ i, i < 6 → x i = 0) ∨ ∃ e, o = some e ∧ EntryFields x e := by
  have zero : [x 0, x 1, x 2, x 3, x 4, x 5] = [0, 0, 0, 0, 0, 0] ↔ ∀ i, i < 6 → x i = 0 := by
    simp only [List.cons.injEq, and_true]
    refine ⟨fun ⟨h0, h1, h2, h3, h4, h5⟩ i hi => ?_, fun h => ?_⟩
    · obtain rfl | rfl | rfl | rfl | rfl | rfl : i = 0 ∨ i = 1 ∨ i = 2 ∨ i = 3 ∨ i = 4 ∨ i = 5 := by omega
      all_goals assumption
    · exact ⟨h 0 (by decide), h 1 (by decide), h 2 (by decide), h 3 (by decide), h 4 (by decide), h 5 (by decide)⟩
  constructor
  · intro h
    unfold parseLayoutEntry at h
    split at h
    · exact .inl ⟨(Option.some.inj h).symm, zero.mp ‹_›⟩
    · refine .inr ?_
      dsimp only at h
      split at h
      · rename_i hf
        obtain ⟨h4, h1, hp⟩ := hf
        split at h
        · rename_i rs ws hr hw
          exact ⟨_, (Option.some.inj h).symm, (entryFlags_iff _ _).mp ⟨h4, h1, rfl⟩, rfl, rfl,
            (portSetOfByte_iff _ _).mp hr, (portSetOfByte_iff _ _).mp hw, hp⟩
        · contradiction
      · contradiction
  · rintro (⟨rfl, h⟩ | ⟨e, rfl, hflags, hl, hb, hr, hw, hp⟩)
    · rw [zero.mpr h]
      rfl
    · obtain ⟨n, b, rs, ws, g⟩ := e
      obtain ⟨h4, h1, hg⟩ := (entryFlags_iff _ _).mpr hflags
      subst hl hb
      unfold parseLayoutEntry
      rw [if_neg fun h => by rw [zero.mp h 0 (by decide)] at h1; simp at h1]
      dsimp only
      rw [if_pos ⟨h4, h1, hp⟩]
      simp only [(portSetOfByte_iff _ _).mpr hr, (portSetOfByte_iff _ _).mpr hw, hg]
      rfl

/-- A stretch of six bytes, byte by byte. -/
theorem take_six_drop {l : List Byte} {k : Nat} (h : k + 6 ≤ l.length) :
    (l.drop k).take 6 = [l.getD (k + 0) 0xFF, l.getD (k + 1) 0xFF, l.getD (k + 2) 0xFF, l.getD (k + 3) 0xFF,
      l.getD (k + 4) 0xFF, l.getD (k + 5) 0xFF] := by
  apply List.ext_getElem
  · simp only [List.length_take, List.length_drop, List.length_cons, List.length_nil]
    omega
  · intro i h1 h2
    have hi : i < 6 := by simpa using h2
    rw [List.getElem_take, List.getElem_drop, ← List.getD_eq_getElem (d := 0xFF)]
    obtain rfl | rfl | rfl | rfl | rfl | rfl : i = 0 ∨ i = 1 ∨ i = 2 ∨ i = 3 ∨ i = 4 ∨ i = 5 := by omega
    all_goals rfl

theorem parseLayoutEntries_cons_iff (n : Nat) (bytes : List Byte) (e : Option LayoutEntry)
    (es : List (Option LayoutEntry)) : parseLayoutEntries (n + 1) bytes = some (e :: es) ↔
      parseLayoutEntry (bytes.take 6) = some e ∧ parseLayoutEntries n (bytes.drop 6) = some es := by
  simp only [parseLayoutEntries]
  split
  · rename_i hx hxs
    rw [hx, hxs]
    simp only [Option.some.injEq, List.cons.injEq]
  · rename_i other
    exact ⟨fun h => by contradiction, fun ⟨hx, hxs⟩ => absurd hxs (other _ _ hx)⟩

/-- The entries of a layout image are parsed one by one (R28). -/
theorem parseLayoutEntries_iff (n : Nat) (bytes : List Byte) (es : List (Option LayoutEntry)) (hl : es.length = n) :
    parseLayoutEntries n bytes = some es ↔
      ∀ i (h : i < es.length), parseLayoutEntry ((bytes.drop (6 * i)).take 6) = some es[i] := by
  induction n generalizing bytes es with
  | zero =>
    obtain rfl := List.length_eq_zero_iff.mp hl
    simp [parseLayoutEntries]
  | succ n ih =>
    obtain ⟨e, es, rfl⟩ := List.exists_cons_of_length_eq_add_one hl
    have tail := ih (bytes.drop 6) es (by simpa using hl)
    rw [parseLayoutEntries_cons_iff, tail]
    constructor
    · rintro ⟨head, rest⟩ i hi
      cases i with
      | zero => exact head
      | succ i =>
        have := rest i (by simpa using hi)
        rwa [List.drop_drop, Nat.add_comm, ← Nat.mul_succ] at this
    · intro h
      refine ⟨h 0 (by simp), fun i hi => ?_⟩
      have := h (i + 1) (by simpa using hi)
      rwa [Nat.mul_succ, Nat.add_comm, ← List.drop_drop] at this

theorem classifyLayout_valid_iff (image : List Byte) (g : Gen) (t : Table 128 (Option LayoutEntry)) :
    classifyLayout image = .valid g t ↔
      byteAt image 0 = 0x5A ∧ byteAt image 1 = 0x01 ∧ g = genOfBytes (byteAt image 2) (byteAt image 3) ∧ g ≠ 0 ∧
      genOfBytes (byteAt image 4) (byteAt image 5) = crc16 (image.take 4 ++ (image.drop 32).take 768) ∧
      parseLayoutEntries 128 ((image.drop 32).take 768) = some t.cells ∧ noOverlap t.cells = true := by
  have whole : Table.ofList 128 none t.cells = t := Table.cells_injective (List.take_left' t.size)
  simp only [classifyLayout]
  constructor
  · intro h
    repeat' split at h
    all_goals try contradiction
    rename_i hv _ es hes hno
    obtain ⟨h0, h1, hg, hc⟩ := hv
    obtain ⟨rfl, rfl⟩ := LayoutClass.valid.inj h
    have cells : (Table.ofList 128 none es).cells = es := List.take_left' (parseLayoutEntries_placed hes).1
    rw [cells]
    exact ⟨h0, h1, rfl, hg, hc, hes, hno⟩
  · rintro ⟨h0, h1, rfl, hg, hc, hes, hno⟩
    rw [if_neg (not_all_blank (by decide) h0 (by decide)), if_pos ⟨h0, h1, hg, hc⟩]
    simp only [hes, hno, if_true, whole]

theorem classifyLayout_noImage_iff (image : List Byte) :
    classifyLayout image = .noImage ↔ ∀ i, i < 6 → image.getD i 0xFF = 0xFF := by
  rw [← all_blank_iff]
  simp only [classifyLayout]
  split
  · rename_i h
    simp only [h]
  · rename_i h
    repeat' split
    all_goals simp only [h, reduceCtorEq]

/-- The 128 entries of a whole layout area, each by its six bytes. -/
theorem parseLayoutEntries_table {image : List Byte} (hl : image.length = 800) (t : Table 128 (Option LayoutEntry)) :
    parseLayoutEntries 128 ((image.drop 32).take 768) = some t.cells ↔
      ∀ r : RecNo, (t.get r = none ∧ ∀ i, i < 6 → image.getD (32 + 6 * r.val + i) 0xFF = 0) ∨
        ∃ e, t.get r = some e ∧ EntryFields (fun i => image.getD (32 + 6 * r.val + i) 0xFF) e := by
  have body : (image.drop 32).take 768 = image.drop 32 := List.take_of_length_le (by simp [hl])
  have entry : ∀ r : RecNo, parseLayoutEntry (((image.drop 32).drop (6 * r.val)).take 6) = some (t.get r) ↔
      (t.get r = none ∧ ∀ i, i < 6 → image.getD (32 + 6 * r.val + i) 0xFF = 0) ∨
        ∃ e, t.get r = some e ∧ EntryFields (fun i => image.getD (32 + 6 * r.val + i) 0xFF) e := fun r => by
    have hr := r.isLt
    rw [List.drop_drop, take_six_drop (by omega)]
    exact parseLayoutEntry_iff (fun i => image.getD (32 + 6 * r.val + i) 0xFF) (t.get r)
  rw [body, parseLayoutEntries_iff 128 _ _ t.size]
  refine ⟨fun h r => (entry r).mp (h r.val (by rw [t.size]; exact r.isLt)), fun h i hi => ?_⟩
  exact (entry ⟨i, by rwa [t.size] at hi⟩).mpr (h _)

/-! ### Record images -/

/-- The header page's first eight bytes, then the data, then 0xFF (R25 to R27). -/
theorem recordImage_eq (r : RecNo) (c : Plane) (g : Gen) (data : List Byte) : ∃ header : List Byte, header.length = 8 ∧
    recordImage r data.length c g data =
      header ++ (data ++ List.replicate (32 * extentPages data.length - 8 - data.length) 0xFF) := by
  refine ⟨recordHeader r data.length c g ++ genBytes (crc16 (recordHeader r data.length c g ++ data)), rfl, ?_⟩
  have length : (recordHeader r data.length c g ++ genBytes (crc16 (recordHeader r data.length c g ++ data)) ++
      data).length = 8 + data.length := by
    simp only [recordHeader, genBytes, List.length_append, List.length_cons, List.length_nil]
  rw [recordImage, List.take_length, padBlank, length, Nat.sub_sub, List.append_assoc]

theorem imageData_recordImage (r : RecNo) (c : Plane) (g : Gen) (data : List Byte) {o n : Nat}
    (h : o + n ≤ data.length) : imageData (recordImage r data.length c g data) o n = (data.drop o).take n := by
  obtain ⟨header, hl, hi⟩ := recordImage_eq r c g data
  rw [imageData, hi, ← List.drop_drop, List.drop_left' hl, List.drop_append_of_le_length (by omega),
    List.take_append_of_le_length (by rw [List.length_drop]; omega)]

/-- Past the data a record image is 0xFF. -/
theorem recordImage_rest (r : RecNo) (c : Plane) (g : Gen) (data : List Byte) :
    (recordImage r data.length c g data).drop (8 + data.length) =
      List.replicate (32 * extentPages data.length - 8 - data.length) 0xFF := by
  obtain ⟨header, hl, hi⟩ := recordImage_eq r c g data
  rw [hi, ← List.drop_drop, List.drop_left' hl, List.drop_left' rfl]

/-- Settles O49: the classes field by field, then the images that the engine writes. -/
theorem imagesReadBack : Obligations.ImagesReadBack := by
  refine ⟨fun r length c image => ⟨fun g => ?_, classifyRecord_noImage_iff r length c image⟩,
    fun image hl => ⟨fun g entries => ?_, classifyLayout_noImage_iff image⟩,
    fun r length c g data h1 h2 hlen hg => ?_, fun g entries hg hp ho => ?_⟩
  · rw [classifyRecord_valid_iff, planeByte_eq]
    rfl
  · have body : (image.drop 32).take 768 = image.drop 32 := List.take_of_length_le (by simp [hl])
    rw [classifyLayout_valid_iff, noOverlap_cells_iff, parseLayoutEntries_table hl, body]
    simp only [EntryFields, placementOk_iff]
    rfl
  · subst hlen
    refine ⟨recordImage_length _ _ _ _ _, classifyRecord_recordImage r _ c g data le_rfl hg, ?_,
      fun o n h => imageData_recordImage r c g data h, recordImage_rest r c g data⟩
    rw [imageData_recordImage r c g data (by omega), List.drop_zero, List.take_length]
  · exact ⟨layoutImage_length g entries, classifyLayout_layoutImage g entries hg hp ho⟩

end Sys2Proof.Machine

namespace Sys2Proof.Machine

open Sys2Proof

/-! # Sessions, queue and reads at every command

What the sessions, the commit queue and the engine have to do with each other is a matter of one port at a time: its
session, its entries in the queue, and the entry in the engine that is attached to it. `Booked` lists the four ways in
which these agree; a command changes them at one port only. -/

/-! ## One port's session and its entries (R39, R40, R54, R59, R66) -/

/-- The entries of a port in the queue. -/
def entriesOf (s : State) (p : Port) : List Entry := s.queue.filter fun e => decide (e.port = p)

/-- The entry in the engine, while it is attached to a port. -/
def attachedTo (s : State) (p : Port) : Option Entry :=
  s.engine.entry.filter fun e => !s.engine.detached && decide (e.port = p)

/-- The staging buffer holds nothing (R40). -/
def Session.Emptied (x : Session) : Prop := x.buffer = emptyBuffer ∧ x.fill = 0 ∧ x.overrun = false

/-- The session is on no record (R39). -/
def Session.Unbound (x : Session) : Prop := x.record = none ∧ x.baseGen = 0

/-- A port's session, its entries in the queue and its entry in the engine agree. -/
inductive Booked (x : Session) : List Entry → Option Entry → Prop
  | idle (hs : x.state = .idle) (he : x.Emptied) (hu : x.Unbound) : Booked x [] none
  | staging (hs : x.state = .staging) : Booked x [] none
  | queued {e : Entry} (hs : x.state = .queued) (hl : ∀ op, e.work = .layout op → x.Emptied ∧ x.Unbound) :
      Booked x [e] none
  | programming {e : Entry} (hs : x.state = .programming) (he : x.Emptied)
      (hl : ∀ op, e.work = .layout op → x.Unbound) : Booked x [] (some e)

/-- The sessions, the queue and the engine agree at every port, and an IDLE engine has no entry (R63). -/
structure BookOk (s : State) : Prop where
  booked : ∀ p, Booked (s.sessions.get p) (entriesOf s p) (attachedTo s p)
  rest : s.engine.state = .idle → s.engine.entry = none

theorem mem_entriesOf {s : State} {p : Port} {e : Entry} : e ∈ entriesOf s p ↔ e ∈ s.queue ∧ e.port = p := by
  simp [entriesOf]

theorem attachedTo_eq_some {s : State} {p : Port} {e : Entry} :
    attachedTo s p = some e ↔ s.engine.entry = some e ∧ s.engine.detached = false ∧ e.port = p := by
  simp [attachedTo, Option.filter_eq_some_iff]

theorem ports_nodup_iff (s : State) : (s.queue.map Entry.port).Nodup ↔ ∀ p, (entriesOf s p).length ≤ 1 := by
  simp only [List.nodup_iff_count_le_one, List.count_eq_length_filter, List.filter_map, List.length_map, entriesOf,
    Function.comp_def, beq_eq_decide]

theorem booked_reset : Booked Session.reset [] none := .idle rfl ⟨rfl, rfl, rfl⟩ ⟨rfl, rfl⟩

theorem layoutQueued_iff (s : State) (p : Port) : LayoutQueued s p ↔
    ∃ op e, e.work = .layout op ∧ (e ∈ entriesOf s p ∨ attachedTo s p = some e) := by
  simp only [mem_entriesOf, attachedTo_eq_some]
  constructor
  · rintro (⟨op, h⟩ | ⟨hd, op, h⟩)
    · exact ⟨op, _, rfl, .inl ⟨h, rfl⟩⟩
    · exact ⟨op, _, rfl, .inr ⟨h, hd, rfl⟩⟩
  · rintro ⟨op, ⟨q, w⟩, rfl, ⟨h, rfl⟩ | ⟨h, hd, rfl⟩⟩
    · exact .inl ⟨op, h⟩
    · exact .inr ⟨hd, op, h⟩

/-- What the statements say of the queue, the engine and the sessions at one port. -/
def PortQueueOk (x : Session) (l : List Entry) (o : Option Entry) : Prop :=
  l.length ≤ 1 ∧ (x.state = .queued ↔ l ≠ []) ∧ (x.state = .programming ↔ o ≠ none)

def PortStagingOk (x : Session) (l : List Entry) (o : Option Entry) : Prop :=
  (x.state = .idle ∨ x.state = .programming ∨ (∃ op e, e.work = .layout op ∧ (e ∈ l ∨ o = some e)) → x.Emptied) ∧
  (x.state = .idle ∨ (∃ op e, e.work = .layout op ∧ (e ∈ l ∨ o = some e)) → x.Unbound)

theorem booked_iff (x : Session) (l : List Entry) (o : Option Entry) :
    Booked x l o ↔ PortQueueOk x l o ∧ PortStagingOk x l o := by
  constructor
  · rintro (⟨hs, he, hu⟩ | ⟨hs⟩ | ⟨hs, hl⟩ | ⟨hs, he, hl⟩)
    · exact ⟨by simp [PortQueueOk, hs], fun _ => he, fun _ => hu⟩
    · exact ⟨by simp [PortQueueOk, hs], by simp [hs], by simp [hs]⟩
    · refine ⟨by simp [PortQueueOk, hs], fun h => ?_, fun h => ?_⟩ <;> simp [hs] at h <;> obtain ⟨op, hop⟩ := h
      exacts [(hl op hop).1, (hl op hop).2]
    · refine ⟨by simp [PortQueueOk, hs], fun _ => he, fun h => ?_⟩
      simp [hs] at h
      obtain ⟨op, hop⟩ := h
      exact hl op hop
  · rintro ⟨⟨h1, hq, hp⟩, he, hu⟩
    cases hs : x.state <;> simp only [hs, reduceCtorEq, false_iff, true_iff, not_not, ne_eq] at hq hp
    case idle => subst hq hp; exact .idle hs (he (.inl hs)) (hu (.inl hs))
    case staging => subst hq hp; exact .staging hs
    case queued =>
      obtain ⟨e, rfl⟩ := List.length_eq_one_iff.mp (Nat.le_antisymm h1 (List.length_pos_iff.mpr hq))
      subst hp
      refine .queued hs fun op hop => ?_
      exact ⟨he (.inr (.inr ⟨op, e, hop, .inl (by simp)⟩)), hu (.inr ⟨op, e, hop, .inl (by simp)⟩)⟩
    case programming =>
      obtain ⟨e, rfl⟩ := Option.ne_none_iff_exists'.mp hp
      subst hq
      exact .programming hs (he (.inr (.inl hs))) fun op hop => hu (.inr ⟨op, e, hop, .inr rfl⟩)

theorem bookOk_iff (s : State) : BookOk s ↔ QueueOk s ∧ StagingOk s := by
  have queued : ∀ p, (∃ e ∈ s.queue, e.port = p) ↔ entriesOf s p ≠ [] := fun p => by
    simp [entriesOf, List.filter_eq_nil_iff]
  have attached : ∀ p, (∃ e, s.engine.entry = some e ∧ s.engine.detached = false ∧ e.port = p) ↔ attachedTo s p ≠ none :=
    fun p => by simp only [Option.ne_none_iff_exists', attachedTo_eq_some]
  simp only [QueueOk, StagingOk, ports_nodup_iff, queued, attached, layoutQueued_iff]
  constructor
  · rintro ⟨booked, rest⟩
    have port := fun p => (booked_iff _ _ _).mp (booked p)
    exact ⟨⟨fun p => (port p).1.1, fun p => (port p).1.2.1, fun p => (port p).1.2.2, rest⟩, fun p => (port p).2⟩
  · rintro ⟨⟨h1, hq, hp, rest⟩, staging⟩
    exact ⟨fun p => (booked_iff _ _ _).mpr ⟨⟨h1 p, hq p, hp p⟩, staging p⟩, rest⟩

end Sys2Proof.Machine

namespace Sys2Proof.Machine

open Sys2Proof

/-! ## What leaves the agreement alone -/

/-- The sessions, the queue and the engine agree, and so do the reads, the requests in progress and the sessions. -/
structure SessionsOk (s : State) : Prop where
  book : BookOk s
  reads : ReadsOk s

theorem sessionsOk_iff (s : State) : SessionsOk s ↔ QueueOk s ∧ ReadsOk s ∧ StagingOk s := by
  constructor
  · rintro ⟨book, reads⟩
    obtain ⟨queue, staging⟩ := (bookOk_iff s).mp book
    exact ⟨queue, reads, staging⟩
  · rintro ⟨queue, reads, staging⟩
    exact ⟨(bookOk_iff s).mpr ⟨queue, staging⟩, reads⟩

/-- No read begins, and a port that goes on reading keeps its request in progress and its IDLE session. -/
def ReadsStay (s t : State) : Prop :=
  ∀ q rd, t.reads.get q = some rd →
    (∃ rd₀, s.reads.get q = some rd₀ ∧ rd.kind = rd₀.kind) ∧
    (t.ports.get q).inProgress = (s.ports.get q).inProgress ∧ (t.ports.get q).due = (s.ports.get q).due ∧
    ((s.sessions.get q).state = .idle → (t.sessions.get q).state = .idle)

/-- The sessions and the queue stay, the engine keeps its entry and does not become IDLE, and no read begins. -/
structure Calm (s t : State) : Prop where
  sessions : t.sessions = s.sessions
  queue : t.queue = s.queue
  entry : t.engine.entry = s.engine.entry
  detached : t.engine.detached = s.engine.detached
  rest : t.engine.state = .idle → s.engine.state = .idle
  reads : ReadsStay s t

namespace ReadsStay

variable {s t u : State}

theorem refl (s : State) : ReadsStay s s := fun _ rd h => ⟨⟨rd, h, rfl⟩, rfl, rfl, id⟩

theorem trans (x : ReadsStay s t) (y : ReadsStay t u) : ReadsStay s u := fun q rd h => by
  obtain ⟨⟨rd₁, h₁, hk₁⟩, hp₁, hd₁, hs₁⟩ := y q rd h
  obtain ⟨⟨rd₀, h₀, hk₀⟩, hp₀, hd₀, hs₀⟩ := x q rd₁ h₁
  exact ⟨⟨rd₀, h₀, hk₁.trans hk₀⟩, hp₁.trans hp₀, hd₁.trans hd₀, fun h => hs₁ (hs₀ h)⟩

/-- Only the reads change. -/
theorem of_kinds (hp : t.ports = s.ports) (hs : t.sessions = s.sessions)
    (hr : ∀ q rd, t.reads.get q = some rd → ∃ rd₀, s.reads.get q = some rd₀ ∧ rd.kind = rd₀.kind) : ReadsStay s t :=
  fun q rd h => ⟨hr q rd h, by rw [hp], by rw [hp], by rw [hs]; exact id⟩

theorem of_eq (hr : t.reads = s.reads) (hp : t.ports = s.ports) (hs : t.sessions = s.sessions) : ReadsStay s t :=
  of_kinds hp hs fun q rd h => ⟨rd, by rw [← hr, h], rfl⟩

theorem noRead (x : ReadsStay s t) {q : Port} (h : s.reads.get q = none) : t.reads.get q = none := by
  cases ht : t.reads.get q with
  | none => rfl
  | some rd =>
    obtain ⟨⟨rd₀, h₀, -⟩, -⟩ := x q rd ht
    simp [h] at h₀

theorem readsOk (x : ReadsStay s t) (h : ReadsOk s) : ReadsOk t := fun q rd hq => by
  obtain ⟨⟨rd₀, h₀, hk⟩, hp, hd, hs⟩ := x q rd hq
  obtain ⟨inProgress, due, idle⟩ := h q rd₀ h₀
  exact ⟨by rwa [hp], by rwa [hd], fun ho => hs (idle (hk ▸ ho))⟩

end ReadsStay

theorem attachedTo_congr {s t : State} (he : t.engine.entry = s.engine.entry)
    (hd : t.engine.detached = s.engine.detached) (p : Port) : attachedTo t p = attachedTo s p := by
  simp only [attachedTo, he, hd]

theorem entriesOf_congr {s t : State} (h : t.queue = s.queue) (p : Port) : entriesOf t p = entriesOf s p := by
  simp only [entriesOf, h]

namespace Calm

variable {s t u : State}

theorem refl (s : State) : Calm s s := ⟨rfl, rfl, rfl, rfl, id, .refl s⟩

theorem trans (x : Calm s t) (y : Calm t u) : Calm s u :=
  ⟨y.sessions.trans x.sessions, y.queue.trans x.queue, y.entry.trans x.entry, y.detached.trans x.detached,
    fun h => x.rest (y.rest h), x.reads.trans y.reads⟩

theorem forPorts {f : Port → State → State} (x : ∀ p s, Calm s (f p s)) (s : State) : Calm s (forPorts f s) :=
  (((x _ _).trans (x _ _)).trans (x _ _)).trans (x _ _)

theorem bookOk (x : Calm s t) (h : BookOk s) : BookOk t := by
  refine ⟨fun p => ?_, fun hi => by rw [x.entry, h.rest (x.rest hi)]⟩
  rw [x.sessions, entriesOf_congr x.queue, attachedTo_congr x.entry x.detached]
  exact h.booked p

theorem keeps (x : Calm s t) (h : SessionsOk s) : SessionsOk t := ⟨x.bookOk h.book, x.reads.readsOk h.reads⟩

end Calm

/-- The homes that the sessions, the queue, the engine, the reads and the requests in progress are none of. -/
def calmHomes : Homes :=
  { pending := true, array := true, clearLow := true, csLow := true, dir := true, results := true, arbiters := true
    locks := true, reports := true, notices := true, flags := true, masks := true, mount := true, device := true
    rc := true }

/-- The reads change besides, and none begins. -/
theorem Only.calm_of_reads {h : Homes} {s t : State} (x : Only h s t)
    (hr : ∀ q rd, t.reads.get q = some rd → ∃ rd₀, s.reads.get q = some rd₀ ∧ rd.kind = rd₀.kind)
    (hh : h.le { calmHomes with reads := true } = true) : Calm s t := by
  have y := x.mono hh
  have engine := y.engine rfl
  exact ⟨y.sessions rfl, y.queue rfl, by rw [engine], by rw [engine], by rw [engine]; exact id,
    .of_kinds (y.ports rfl) (y.sessions rfl) hr⟩

theorem Only.calm {h : Homes} {s t : State} (x : Only h s t) (hh : h.le calmHomes = true) : Calm s t := by
  have y := x.mono hh
  exact y.calm_of_reads (fun q rd h => ⟨rd, by rw [← y.reads rfl, h], rfl⟩) (by decide)

/-! ### Ports -/

/-- A port's transport state changes, its request in progress and the response due do not. -/
theorem setPort_calm {p : Port} {x : PortIf} {s : State} (hp : x.inProgress = (s.ports.get p).inProgress)
    (hd : x.due = (s.ports.get p).due) : Calm s (setPort p x s) := by
  refine ⟨rfl, rfl, rfl, rfl, id, fun q rd h => ⟨⟨rd, h, rfl⟩, ?_, ?_, id⟩⟩
  all_goals
    rw [setPort_ports, PerPort.get_set]
    split
    · subst_vars; assumption
    · rfl

/-- The transport state of a port that reads nothing changes. -/
theorem setPort_calm_of_noRead {p : Port} (x : PortIf) {s : State} (h : s.reads.get p = none) :
    Calm s (setPort p x s) := by
  refine ⟨rfl, rfl, rfl, rfl, id, fun q rd hq => ⟨⟨rd, hq, rfl⟩, ?_, ?_, id⟩⟩
  all_goals
    have : q ≠ p := fun hp => by simp [hp, h] at hq
    rw [setPort_ports, PerPort.get_set_ne _ _ _ _ this]

theorem respond_calm {p : Port} (c : ResultCode) (b : List Byte) {s : State} (h : s.reads.get p = none) :
    Calm s (respond p c b s) := by
  unfold respond
  split
  · exact setPort_calm_of_noRead _ h
  · exact .refl s

theorem writeReply_calm {p : Port} {s : State} (h : s.reads.get p = none) : Calm s (writeReply p s) := by
  unfold writeReply
  split
  · exact setPort_calm_of_noRead _ h
  · exact .refl s

theorem answer_calm {p : Port} (c : ResultCode) (b : List Byte) {s : State} (h : s.reads.get p = none) :
    Calm s (answer p c b s) :=
  have responded := respond_calm c b h
  responded.trans (writeReply_calm (responded.reads.noRead h))

theorem recordOutcome_calm (p : Port) (o : FrameOutcome) (s : State) : Calm s (recordOutcome p o s) := setPort_calm rfl rfl

theorem setCs_calm (p : Port) (low : Bool) (s : State) : Calm s (setCs p low s) := (setCs_only p low s).calm (by decide)

theorem setReceiver_calm (p : Port) (x : ReceiverState) (s : State) : Calm s (setReceiver p x s) := setPort_calm rfl rfl

theorem findChipSelect_calm (p : Port) (low : Bool) (s : State) : Calm s (findChipSelect p low s) :=
  (setReceiver_calm p _ s).trans (setCs_calm p _ _)

theorem fallFrame_calm (p : Port) (s : State) : Calm s (fallFrame p s) := by
  unfold fallFrame
  split
  · exact .refl s
  · exact (setReceiver_calm p _ s).trans (setCs_calm p _ _)

theorem endFrame_calm (p : Port) (s : State) : Calm s (endFrame p s) :=
  (setReceiver_calm p _ s).trans (setCs_calm p _ _)

theorem clockFrame_calm (p : Port) (bytes : List Byte) (extra : Nat) (s : State) :
    Calm s (clockFrame p bytes extra s) := by
  unfold clockFrame
  repeat' split
  · exact setPort_calm rfl rfl
  · exact .refl s
  · exact .refl s

/-! ### Reads -/

/-- A port's read ends, or goes on as the same request. -/
theorem setRead_calm {p : Port} {x : Option Read} {s : State}
    (hx : ∀ rd, x = some rd → ∃ rd₀, s.reads.get p = some rd₀ ∧ rd.kind = rd₀.kind) : Calm s (setRead p x s) := by
  refine (setRead_only p x s).calm_of_reads (fun q rd hq => ?_) (by decide)
  rw [setRead_reads, PerPort.get_set] at hq
  split at hq
  · rename_i hp
    rw [hp]
    exact hx rd hq
  · exact ⟨rd, hq, rfl⟩

theorem setRead_none_calm (p : Port) (s : State) : Calm s (setRead p none s) := setRead_calm (by simp)

theorem endTenure_calm (pl : Plane) (s : State) : Calm s (endTenure pl s) := by
  refine (endTenure_only pl s).calm_of_reads (fun q rd hq => ?_) (by decide)
  rcases endTenure_reads pl s q with h | h <;> rw [h] at hq
  · exact ⟨rd, hq, rfl⟩
  · obtain ⟨rd₀, h₀, rfl⟩ := Option.map_eq_some_iff.mp hq
    exact ⟨rd₀, h₀, rfl⟩

theorem grantRead_calm (pl : Plane) (p : Port) (s : State) : Calm s (grantRead pl p s) := by
  refine ((setArbiter_only pl _ s).calm (by decide)).trans (setRead_calm fun rd hrd => ?_)
  obtain ⟨rd₀, h₀, rfl⟩ := Option.map_eq_some_iff.mp hrd
  exact ⟨rd₀, h₀, rfl⟩

theorem joinRead_calm (pl : Plane) (p : Port) (s : State) : Calm s (joinRead pl p s) := by
  simp only [joinRead]
  split
  · exact grantRead_calm pl p s
  · exact (setArbiter_only pl _ s).calm (by decide)

theorem moveRead_calm (r : RecNo) (c : Plane) (p : Port) (s : State) : Calm s (moveRead r c p s) := by
  refine (moveRead_only r c p s).calm_of_reads (fun q rd hq => ?_) (by decide)
  rw [moveRead_reads] at hq
  split at hq
  · subst_vars
    obtain ⟨rd₀, h₀, rfl⟩ := Option.map_eq_some_iff.mp hq
    refine ⟨rd₀, h₀, ?_⟩
    split <;> rfl
  · exact ⟨rd, hq, rfl⟩

theorem moveReads_calm (r : RecNo) (c : Plane) (s : State) : Calm s (moveReads r c s) := by
  have moved := Calm.forPorts (moveRead_calm r c) s
  simp only [moveReads]
  split
  · exact moved.trans (endTenure_calm c _)
  · exact moved

/-- A withdrawn read is gone (R37). -/
theorem withdrawRead_reads (p : Port) (s : State) : (withdrawRead p s).reads = s.reads.set p none := by
  unfold withdrawRead
  split
  · rfl
  · rename_i h
    rw [← h, PerPort.set_get]

theorem withdrawRead_calm (p : Port) (s : State) : Calm s (withdrawRead p s) := by
  refine (withdrawRead_only p s).calm_of_reads (fun q rd hq => ?_) (by decide)
  rw [withdrawRead_reads, PerPort.get_set] at hq
  split at hq
  · contradiction
  · exact ⟨rd, hq, rfl⟩

/-- A waiting read is withdrawn and refused (R37, R45, R109). -/
theorem withdrawn_calm (p : Port) (c : ResultCode) (s : State) : Calm s (answer p c [] (withdrawRead p s)) :=
  (withdrawRead_calm p s).trans (answer_calm c [] (by rw [withdrawRead_reads, PerPort.get_set_self]))

theorem refuseOpen_calm (r : RecNo) (p : Port) (s : State) : Calm s (refuseOpen r p s) := by
  unfold refuseOpen
  split
  · rename_i rd hrd
    repeat' split
    · exact withdrawn_calm p _ s
    · exact setRead_calm fun _ h => ⟨rd, hrd, by rw [← Option.some.inj h]⟩
    · exact .refl s
  · exact .refl s

theorem refuseDeleted_calm (r : RecNo) (p : Port) (s : State) : Calm s (refuseDeleted r p s) := by
  unfold refuseDeleted
  repeat' split
  · exact withdrawn_calm p _ s
  · exact withdrawn_calm p _ s
  · exact .refl s
  · exact .refl s

/-- The read of a cleared port is gone, withdrawn or discarded (R110). -/
theorem clearRead_reads (p : Port) (s : State) : (clearRead p s).reads = s.reads.set p none := by
  unfold clearRead
  split
  · split
    · exact withdrawRead_reads p s
    · rfl
  · rename_i h
    rw [← h, PerPort.set_get]

end Sys2Proof.Machine

namespace Sys2Proof.Machine

open Sys2Proof

/-! ## What changes it, at one port -/

theorem BookOk.atPort {s t : State} {p : Port} (h : BookOk s)
    (others : ∀ q, q ≠ p → t.sessions.get q = s.sessions.get q ∧ entriesOf t q = entriesOf s q ∧
      attachedTo t q = attachedTo s q)
    (hp : Booked (t.sessions.get p) (entriesOf t p) (attachedTo t p))
    (rest : t.engine.state = .idle → t.engine.entry = none) : BookOk t := by
  refine ⟨fun q => ?_, rest⟩
  by_cases hq : q = p
  · rwa [hq]
  · obtain ⟨sessions, entries, attached⟩ := others q hq
    rw [sessions, entries, attached]
    exact h.booked q

namespace Booked

variable {x : Session} {l : List Entry} {o : Option Entry}

/-- An IDLE or STAGING session has no entry. -/
theorem free (h : Booked x l o) (hs : x.state = .idle ∨ x.state = .staging) : l = [] ∧ o = none := by
  cases h with
  | idle | staging => exact ⟨rfl, rfl⟩
  | queued h | programming h => simp [h] at hs

theorem of_idle (h : Booked x l o) (hs : x.state = .idle) : x.Emptied ∧ x.Unbound := by
  cases h with
  | idle _ he hu => exact ⟨he, hu⟩
  | staging h | queued h | programming h => simp [h] at hs

/-- A session that is not QUEUED has no entry in the queue. -/
theorem entries_nil (h : Booked x l o) (hs : x.state ≠ .queued) : l = [] := by
  cases h with
  | queued h => exact absurd h hs
  | idle | staging | programming => rfl

/-- A port with an entry in the queue has no other. -/
theorem of_entry {e : Entry} (h : Booked x l o) (he : e ∈ l) :
    x.state = .queued ∧ l = [e] ∧ o = none ∧ ∀ op, e.work = .layout op → x.Emptied ∧ x.Unbound := by
  cases h with
  | queued hs hl =>
    obtain rfl := List.mem_singleton.mp he
    exact ⟨hs, rfl, rfl, hl⟩
  | idle | staging | programming => simp at he

/-- A QUEUED session has no entry in the engine. -/
theorem attached_none (h : Booked x l o) (hs : x.state = .queued) : o = none := by
  cases h with
  | programming h => simp [hs] at h
  | idle | staging | queued => rfl

/-- A port whose entry is in the engine has none in the queue. -/
theorem of_attached {e : Entry} (h : Booked x l (some e)) : l = [] := by
  cases h
  rfl

end Booked

/-- The session of a port changes; of a port that reads, not from IDLE to another state. -/
theorem ReadsOk.of_session {s t : State} {p : Port} {x : Session} (h : ReadsOk s) (hr : t.reads = s.reads)
    (hp : t.ports = s.ports) (hs : t.sessions = s.sessions.set p x)
    (hx : s.reads.get p = none ∨ (s.sessions.get p).state ≠ .idle ∨ x.state = .idle) : ReadsOk t := by
  refine ReadsStay.readsOk (fun q rd hq => ?_) h
  rw [hr] at hq
  refine ⟨⟨rd, hq, rfl⟩, by rw [hp], by rw [hp], fun hi => ?_⟩
  rw [hs, PerPort.get_set]
  split
  · subst_vars
    rcases hx with hx | hx | hx
    · simp [hx] at hq
    · exact absurd hi hx
    · exact hx
  · exact hi

namespace SessionsOk

variable {s : State} {p : Port}

/-- An IDLE or STAGING session of a port that reads nothing becomes IDLE or STAGING. -/
theorem setSession_free {x : Session} (h : SessionsOk s) (hr : s.reads.get p = none)
    (hs : (s.sessions.get p).state = .idle ∨ (s.sessions.get p).state = .staging) (hx : Booked x [] none) :
    SessionsOk (setSession p x s) := by
  refine ⟨h.book.atPort (p := p) (fun q hq => ⟨PerPort.get_set_ne _ _ _ _ hq, rfl, rfl⟩) ?_ h.book.rest,
    h.reads.of_session rfl rfl rfl (.inl hr)⟩
  obtain ⟨entries, attached⟩ := (h.book.booked p).free hs
  rw [setSession_sessions, PerPort.get_set_self]
  exact entries ▸ attached ▸ hx

/-- The entry of an IDLE or STAGING session of a port that reads nothing joins the queue (R58, R59). -/
theorem enqueued {x : Session} {w : Work} (h : SessionsOk s) (hr : s.reads.get p = none)
    (hs : (s.sessions.get p).state = .idle ∨ (s.sessions.get p).state = .staging) (hx : Booked x [⟨p, w⟩] none) :
    SessionsOk (setSession p x (setQueue (s.queue ++ [⟨p, w⟩]) s)) := by
  have entries : ∀ q, entriesOf (setSession p x (setQueue (s.queue ++ [⟨p, w⟩]) s)) q =
      entriesOf s q ++ if p = q then [⟨p, w⟩] else [] := fun q => by
    simp only [entriesOf, setSession_queue, setQueue_queue, List.filter_append, List.filter_cons, List.filter_nil,
      decide_eq_true_eq]
  refine ⟨h.book.atPort (p := p) (fun q hq => ⟨PerPort.get_set_ne _ _ _ _ hq, ?_, rfl⟩) ?_ h.book.rest,
    h.reads.of_session rfl rfl rfl (.inl hr)⟩
  · rw [entries, if_neg (Ne.symm hq), List.append_nil]
  · obtain ⟨nil, attached⟩ := (h.book.booked p).free hs
    rw [setSession_sessions, PerPort.get_set_self, entries, nil, if_pos rfl]
    exact attached ▸ hx

end SessionsOk

/-! ### A port's entry leaves the queue (R61) -/

theorem removeEntry_queue (p : Port) (s : State) :
    (removeEntry p s).queue = s.queue.filter fun e => decide (e.port ≠ p) := by
  simp only [removeEntry]
  split
  · exact (undoEntry_only _ _).queue rfl
  · rfl

theorem entriesOf_filter_ne {s t : State} {p : Port} (h : t.queue = s.queue.filter fun e => decide (e.port ≠ p))
    (q : Port) : entriesOf t q = if q = p then [] else entriesOf s q := by
  rw [entriesOf, h, List.filter_filter]
  split
  · subst_vars
    exact List.filter_eq_nil_iff.mpr (by simp)
  · refine List.filter_congr fun e _ => ?_
    by_cases he : e.port = q <;> simp [*]

theorem clearSession_sessions (p : Port) (s : State) :
    (clearSession p s).sessions = s.sessions.set p Session.reset := by
  unfold clearSession
  split
  · rw [setSession_sessions, (removeEntry_only p s).sessions rfl]
  · rfl

/-- A cleared port has no entry in the queue (R57). -/
theorem entriesOf_clearSession {s : State} (h : BookOk s) (p q : Port) :
    entriesOf (clearSession p s) q = if q = p then [] else entriesOf s q := by
  unfold clearSession
  split
  · exact entriesOf_filter_ne (removeEntry_queue p s) q
  · rename_i hs
    split
    · subst_vars
      exact (h.booked q).entries_nil hs
    · rfl

/-- Nor one that is attached in the engine (R75). -/
theorem attachedTo_detachEntry (p q : Port) (s : State) :
    attachedTo (detachEntry p s) q = if q = p then none else attachedTo s q := by
  unfold detachEntry
  split
  · rename_i e he
    split
    · subst_vars
      simp only [attachedTo, setEngine_engine, he, Option.filter_some]
      by_cases hq : e.port = q <;> simp [hq]
    · rename_i hp
      split
      · subst_vars
        simp [attachedTo, he, hp]
      · rfl
  · rename_i he
    simp [attachedTo, he]

theorem detachEntry_rest {p : Port} {s : State} (h : s.engine.state = .idle → s.engine.entry = none) :
    (detachEntry p s).engine.state = .idle → (detachEntry p s).engine.entry = none := by
  unfold detachEntry
  repeat' split
  all_goals exact h

namespace SessionsOk

variable {s : State} {p : Port}

/-- ABANDON of a QUEUED entry (R52). -/
theorem abandoned (h : SessionsOk s) (hs : (s.sessions.get p).state = .queued) :
    SessionsOk (setSession p Session.reset (removeEntry p s)) := by
  have x := removeEntry_only p s
  have engine : (removeEntry p s).engine = s.engine := x.engine rfl
  have attached : ∀ q, attachedTo (setSession p Session.reset (removeEntry p s)) q = attachedTo s q := fun q =>
    attachedTo_congr (by rw [setSession_engine, engine]) (by rw [setSession_engine, engine]) q
  have entries := entriesOf_filter_ne (t := setSession p Session.reset (removeEntry p s)) (removeEntry_queue p s)
  have sessions : (setSession p Session.reset (removeEntry p s)).sessions = s.sessions.set p Session.reset := by
    rw [setSession_sessions, x.sessions rfl]
  refine ⟨h.book.atPort (p := p) (fun q hq => ⟨?_, ?_, attached q⟩) ?_ ?_,
    h.reads.of_session (x.reads rfl) (x.ports rfl) sessions (.inr (.inr rfl))⟩
  · rw [sessions, PerPort.get_set_ne _ _ _ _ hq]
  · rw [entries, if_neg hq]
  · rw [sessions, PerPort.get_set_self, entries, if_pos rfl, attached, (h.book.booked p).attached_none hs]
    exact booked_reset
  · rw [setSession_engine, engine]
    exact h.book.rest

/-- The session, the queued entry and the attached entry of a port are cleared (R57, R61, R75). -/
theorem cleared (h : SessionsOk s) : SessionsOk (detachEntry p (clearSession p s)) := by
  have x := detachEntry_only p (clearSession p s)
  have y := clearSession_only p s
  have engine : (clearSession p s).engine = s.engine := y.engine rfl
  have sessions : (detachEntry p (clearSession p s)).sessions = s.sessions.set p Session.reset :=
    (x.sessions rfl).trans (clearSession_sessions p s)
  have entries : ∀ q, entriesOf (detachEntry p (clearSession p s)) q = if q = p then [] else entriesOf s q := fun q => by
    rw [entriesOf_congr (x.queue rfl), entriesOf_clearSession h.book]
  have attached : ∀ q, attachedTo (detachEntry p (clearSession p s)) q = if q = p then none else attachedTo s q :=
    fun q => by
      rw [attachedTo_detachEntry, attachedTo_congr (s := s) (by rw [engine]) (by rw [engine])]
  refine ⟨h.book.atPort (p := p) (fun q hq => ⟨?_, ?_, ?_⟩) ?_ (detachEntry_rest (engine ▸ h.book.rest)),
    h.reads.of_session ((x.reads rfl).trans (y.reads rfl)) ((x.ports rfl).trans (y.ports rfl)) sessions
      (.inr (.inr rfl))⟩
  · rw [sessions, PerPort.get_set_ne _ _ _ _ hq]
  · rw [entries, if_neg hq]
  · rw [attached, if_neg hq]
  · rw [sessions, PerPort.get_set_self, entries, if_pos rfl, attached, if_pos rfl]
    exact booked_reset

end SessionsOk

/-! ### The end of the engine's entry (R71, R72, R75, R138) -/

/-- The engine's entry is over: the engine is IDLE, and unless the entry is detached its port's session is too. -/
structure Ended (s : State) (e : Entry) (t : State) : Prop where
  engine : t.engine = Engine.reset
  queue : t.queue = s.queue
  sessions : t.sessions = if s.engine.detached then s.sessions else s.sessions.set e.port Session.reset
  reads : t.reads = s.reads
  ports : t.ports = s.ports

/-- The end is handed out, and then comes what leaves the sessions, the queue, the reads and the ports alone. -/
theorem ended_engineIdle {s t : State} {e : Entry} {x : CommitResult}
    (h : Only { results := true, flags := true, notices := true } (handOutEnd e x s) t) : Ended s e (engineIdle t) := by
  have handed := handOutEnd_only e x s
  refine ⟨rfl, (h.queue rfl).trans (handed.queue rfl), (h.sessions rfl).trans ?_, (h.reads rfl).trans (handed.reads rfl),
    (h.ports rfl).trans (handed.ports rfl)⟩
  rw [handOutEnd_eq]

theorem failRecord_ended (e : Entry) (r : RecNo) (c : ResultCode) (s : State) : Ended s e (failRecord e r c s) :=
  ended_engineIdle (.refl _ _)

theorem failLayout_ended (e : Entry) (c : ResultCode) (s : State) : Ended (undoEntry e s) e (failLayout e c s) :=
  ended_engineIdle (.refl _ _)

theorem undoEntry_calm (e : Entry) (s : State) : Calm s (undoEntry e s) := (undoEntry_only e s).calm (by decide)

namespace SessionsOk

variable {s t : State} {e : Entry}

theorem ended (h : SessionsOk s) (he : s.engine.entry = some e) (x : Ended s e t) : SessionsOk t := by
  have entries := entriesOf_congr x.queue
  have attached : ∀ q, attachedTo t q = none := fun q => by rw [attachedTo, x.engine]; rfl
  have rest : t.engine.state = .idle → t.engine.entry = none := fun _ => by rw [x.engine]; rfl
  cases hd : s.engine.detached with
  | true =>
    have sessions : t.sessions = s.sessions := by rw [x.sessions, if_pos hd]
    have detached : ∀ q, attachedTo s q = none := fun q => by simp [attachedTo, hd]
    refine ⟨⟨fun q => ?_, rest⟩, (ReadsStay.of_eq x.reads x.ports sessions).readsOk h.reads⟩
    rw [sessions, entries, attached, ← detached q]
    exact h.book.booked q
  | false =>
    have sessions : t.sessions = s.sessions.set e.port Session.reset := by rw [x.sessions, if_neg (by simp [hd])]
    have working : attachedTo s e.port = some e := attachedTo_eq_some.mpr ⟨he, hd, rfl⟩
    refine ⟨h.book.atPort (p := e.port) (fun q hq => ⟨?_, entries q, ?_⟩) ?_ rest,
      h.reads.of_session x.reads x.ports sessions (.inr (.inr rfl))⟩
    · rw [sessions, PerPort.get_set_ne _ _ _ _ hq]
    · rw [attached, attachedTo, he, Option.filter_some, if_neg (by simp [Ne.symm hq])]
    · have nil := (working ▸ h.book.booked e.port).of_attached
      rw [sessions, PerPort.get_set_self, entries, nil, attached]
      exact booked_reset

theorem failRecord (h : SessionsOk s) (he : s.engine.entry = some e) (r : RecNo) (c : ResultCode) :
    SessionsOk (Machine.failRecord e r c s) := h.ended he (failRecord_ended e r c s)

theorem failLayout (h : SessionsOk s) (he : s.engine.entry = some e) (c : ResultCode) :
    SessionsOk (Machine.failLayout e c s) := by
  have undone := undoEntry_calm e s
  exact (undone.keeps h).ended (by rw [undone.entry, he]) (failLayout_ended e c s)

theorem failFault (h : SessionsOk s) (he : s.engine.entry = some e) : SessionsOk (Machine.failFault e s) := by
  unfold Machine.failFault
  split
  · exact h.failRecord he _ _
  · exact h.failLayout he _

end SessionsOk

/-! ### Completion (R71, R137) -/

theorem completeRecord_ended (e : Entry) (r : RecNo) (c : Plane) (g : Gen) (s : State) :
    Ended (moveReads r c (setSlot r { slotOf s r with content := .valid c g } s)) e (completeRecord e r c g s) :=
  ended_engineIdle ((postNotices_only _ _ _ _).mono (by decide))

theorem completeLayout_ended (e : Entry) (op : LayoutOp) (c : Plane) (g : Gen) (s : State) :
    Ended (applyLayoutOp op (setLayout (some ⟨c, g⟩) s)) e (completeLayout e op c g s) :=
  ended_engineIdle (Only.forPorts (fun p u => (setFlags_only p _ u).mono (by decide)) _)

theorem applyLayoutOp_calm (op : LayoutOp) (s : State) : Calm s (applyLayoutOp op s) := by
  cases op with
  | format => exact Only.calm (h := { dir := true, device := true }) (.ofEq rfl) (by decide)
  | define r e => exact (setSlot_only _ _ s).calm (by decide)
  | delete r =>
    have dropped : ∀ p u, Calm u (dropNotice r p (refuseDeleted r p u)) := fun p u =>
      (refuseDeleted_calm r p u).trans ((dropNotice_only r p _).calm (by decide))
    exact ((setSlot_only r Slot.undefined s).calm (by decide)).trans (Calm.forPorts dropped _)
  | setAccess r rs ws g =>
    simp only [applyLayoutOp, setAccessEffects]
    refine Calm.trans ?_ ((applyWriteSet_only r ws _).calm (by decide))
    refine ((setSlot_only r _ s).calm (by decide)).trans (Calm.forPorts (fun p u => ?_) _)
    split
    · exact (stopWatching_only r p u).calm (by decide)
    · exact .refl u

theorem leavePage_calm (pl : Plane) (page : Nat) (x : PageBytes) (s : State) : Calm s (leavePage pl page x s) :=
  ((setArray_only _ s).calm (by decide)).trans (endTenure_calm pl _)

/-- The engine asks for a step of its entry (R68, R69). -/
theorem askStep_calm (st : EngineStep) (n : Nat) (s : State) : Calm s (askStep st n s) := by
  have x := askStep_only st n s
  refine ⟨x.sessions rfl, x.queue rfl, by rw [askStep_engine], by rw [askStep_engine], fun h => ?_,
    .of_eq (x.reads rfl) (x.ports rfl) (x.sessions rfl)⟩
  rw [askStep_engine] at h
  cases hp : st.phase <;> simp [hp, phaseState] at h

namespace SessionsOk

variable {s t : State} {e : Entry}

theorem completeRecord (h : SessionsOk s) (he : s.engine.entry = some e) (r : RecNo) (c : Plane) (g : Gen) :
    SessionsOk (Machine.completeRecord e r c g s) := by
  have moved := ((setSlot_only r { slotOf s r with content := .valid c g } s).calm (by decide)).trans
    (moveReads_calm r c _)
  exact (moved.keeps h).ended (moved.entry.trans he) (completeRecord_ended e r c g s)

theorem completeLayout (h : SessionsOk s) (he : s.engine.entry = some e) (op : LayoutOp) (c : Plane) (g : Gen) :
    SessionsOk (Machine.completeLayout e op c g s) := by
  have applied := ((setLayout_only (some ⟨c, g⟩) s).calm (by decide)).trans (applyLayoutOp_calm op _)
  exact (applied.keeps h).ended (applied.entry.trans he) (completeLayout_ended e op c g s)

theorem completeEntry (h : SessionsOk s) (he : s.engine.entry = some e) : SessionsOk (Machine.completeEntry e s) := by
  unfold Machine.completeEntry
  repeat' split
  · exact h.completeRecord he _ _ _
  · exact h.completeLayout he _ _ _
  · exact h

theorem stepPassed (h : SessionsOk s) (he : s.engine.entry = some e) (st : EngineStep) :
    SessionsOk (Machine.stepPassed e st s) := by
  unfold Machine.stepPassed
  split
  · exact (askStep_calm _ _ s).keeps h
  · exact h.completeEntry he

theorem stepFailed (h : SessionsOk s) (he : s.engine.entry = some e) (st : EngineStep) :
    SessionsOk (Machine.stepFailed e st s) := by
  have asks : ∀ st n, SessionsOk (askStep st n s) := fun st n => (askStep_calm st n s).keeps h
  have fails := h.failFault he
  unfold Machine.stepFailed stepExhausted
  repeat' split
  exacts [asks _ _, fails, asks _ _, fails, asks _ _, fails]

/-- An attempt ends, passed or failed (R69). -/
theorem attempted (h : SessionsOk s) (he : s.engine.entry = some e) (st : EngineStep) (pl : Plane) (page : Nat)
    (x : PageBytes) (P : Prop) [Decidable P] : SessionsOk
      (if P then Machine.stepPassed e st (leavePage pl page x s) else Machine.stepFailed e st (leavePage pl page x s)) := by
  have left := (leavePage_calm pl page x s).keeps h
  have entry : (leavePage pl page x s).engine.entry = some e := by rw [leavePage_engine, he]
  split
  · exact left.stepPassed entry st
  · exact left.stepFailed entry st

/-! ### The start of an entry (R66) -/

/-- The head entry leaves the queue for the IDLE engine, and its port's session becomes PROGRAMMING. -/
theorem begun {rest : List Entry} {x : Session} (h : SessionsOk s) (hq : s.queue = e :: rest)
    (hi : s.engine.state = .idle) (hx : Booked x [] (some e)) (queue : t.queue = rest)
    (sessions : t.sessions = s.sessions.set e.port x) (entry : t.engine.entry = some e)
    (detached : t.engine.detached = false) (busy : t.engine.state ≠ .idle) (reads : t.reads = s.reads)
    (ports : t.ports = s.ports) : SessionsOk t := by
  have entries : ∀ q, entriesOf s q = if e.port = q then e :: entriesOf t q else entriesOf t q := fun q => by
    simp only [entriesOf, hq, queue, List.filter_cons, decide_eq_true_eq]
  have head : e ∈ entriesOf s e.port := mem_entriesOf.mpr ⟨by simp [hq], rfl⟩
  obtain ⟨queued, single, -⟩ := (h.book.booked e.port).of_entry head
  refine ⟨h.book.atPort (p := e.port) (fun q hp => ⟨?_, ?_, ?_⟩) ?_ (fun h => absurd h busy),
    h.reads.of_session reads ports sessions (.inr (.inl (by simp [queued])))⟩
  · rw [sessions, PerPort.get_set_ne _ _ _ _ hp]
  · rw [entries, if_neg (Ne.symm hp)]
  · simp [attachedTo, entry, h.book.rest hi, Ne.symm hp]
  · have nil : entriesOf t e.port = [] := by
      rw [entries, if_pos rfl] at single
      exact (List.cons.inj single).2
    rw [sessions, PerPort.get_set_self, nil, attachedTo_eq_some.mpr ⟨entry, detached, rfl⟩]
    exact hx

/-- The data go to the engine buffer, and the staging buffer is emptied (R40, R66). -/
theorem takeStaged {rest : List Entry} {r : RecNo} {E : Engine} {y : Session} (h : SessionsOk s)
    (hq : s.queue = e :: rest) (hi : s.engine.state = .idle) (hw : ∀ op, e.work ≠ .layout op)
    (hy : y.state = .programming) (entry : E.entry = some e) (detached : E.detached = false) (busy : E.state ≠ .idle) :
    SessionsOk (Machine.takeStaged e.port r (setEngine E (setSession e.port y (setQueue rest s)))) :=
  h.begun (x := { y with fill := 0, overrun := false, buffer := emptyBuffer }) hq hi
    (.programming hy ⟨rfl, rfl, rfl⟩ fun op hop => absurd hop (hw op)) rfl (by simp [Machine.takeStaged, sessionOf]) entry
    detached busy rfl rfl

theorem startRecord {rest : List Entry} {p : Port} {r : RecNo} {cond : Condition} {base : Gen} (h : SessionsOk s)
    (hq : s.queue = ⟨p, .record r cond base⟩ :: rest) (hi : s.engine.state = .idle) :
    SessionsOk (startEntry ⟨p, .record r cond base⟩ (setQueue rest s)) := by
  have begun := h.takeStaged (r := r) (y := { sessionOf s p with state := .programming })
    (E := { Engine.reset with state := .check, entry := some ⟨p, .record r cond base⟩ }) hq hi (by simp) rfl rfl rfl
    (by simp)
  simp only [startEntry, Machine.startRecord]
  split
  · exact begun.failRecord rfl _ _
  · exact begun.failRecord rfl _ _
  · refine (askStep_calm _ _ _).keeps (Calm.keeps ?_ begun)
    exact ⟨rfl, rfl, rfl, rfl, id, .refl _⟩

theorem startLayout {rest : List Entry} {p : Port} {op : LayoutOp} (h : SessionsOk s)
    (hq : s.queue = ⟨p, .layout op⟩ :: rest) (hi : s.engine.state = .idle) :
    SessionsOk (startEntry ⟨p, .layout op⟩ (setQueue rest s)) := by
  obtain ⟨-, -, -, hl⟩ := (h.book.booked p).of_entry (mem_entriesOf.mpr ⟨by rw [hq]; exact List.mem_cons_self, rfl⟩)
  obtain ⟨emptied, unbound⟩ := hl op rfl
  have begun : ∀ E : Engine, E.entry = some ⟨p, .layout op⟩ → E.detached = false → E.state ≠ .idle →
      SessionsOk (setEngine E (setSession p { sessionOf s p with state := .programming } (setQueue rest s))) :=
    fun E entry detached busy => h.begun (x := { sessionOf s p with state := .programming }) hq hi
      (.programming rfl emptied fun _ _ => unbound) rfl rfl entry detached busy rfl rfl
  simp only [startEntry, Machine.startLayout]
  split
  · exact (begun _ rfl rfl (by simp)).failLayout rfl _
  · exact (askStep_calm _ _ _).keeps (begun _ rfl rfl (by simp))

theorem start {rest : List Entry} (h : SessionsOk s) (hq : s.queue = e :: rest) (hi : s.engine.state = .idle) :
    SessionsOk (startEntry e (setQueue rest s)) := by
  obtain ⟨p, w⟩ := e
  cases w with
  | record r cond base => exact h.startRecord hq hi
  | layout op => exact h.startLayout hq hi

end SessionsOk

end Sys2Proof.Machine

namespace Sys2Proof.Machine

open Sys2Proof

/-! ## Requests -/

/-- A request of a port has been accepted: it is in progress, its response not decided, and the port reads nothing
(R170). -/
structure Accepted (s : State) (p : Port) : Prop where
  ok : SessionsOk s
  inProgress : (s.ports.get p).inProgress ≠ none
  due : (s.ports.get p).due = none
  noRead : s.reads.get p = none

theorem ReadsOk.noRead {s : State} (h : ReadsOk s) {p : Port}
    (hp : (s.ports.get p).inProgress = none ∨ (s.ports.get p).due ≠ none) : s.reads.get p = none := by
  cases hr : s.reads.get p with
  | none => rfl
  | some rd =>
    obtain ⟨inProgress, due, -⟩ := h p rd hr
    rcases hp with hp | hp
    · exact absurd hp inProgress
    · exact absurd due hp

theorem acceptRequest_accepted {s : State} {p : Port} (tag : Byte) (h : SessionsOk s)
    (hp : (s.ports.get p).inProgress = none) : Accepted (acceptRequest p tag s) p := by
  have noRead : s.reads.get p = none := h.reads.noRead (.inl hp)
  exact ⟨(setPort_calm_of_noRead _ noRead).keeps h, by simp [acceptRequest], by simp [acceptRequest], noRead⟩

/-- A response is due only at a port that reads nothing. -/
theorem SessionsOk.writeReply {s : State} (h : SessionsOk s) (p : Port) : SessionsOk (writeReply p s) := by
  cases hd : (s.ports.get p).due with
  | none => rwa [writeReply_none p s hd]
  | some r => exact (writeReply_calm (h.reads.noRead (.inr (by simp [hd])))).keeps h

theorem SessionsOk.respond {s : State} (h : SessionsOk s) {p : Port} (hr : s.reads.get p = none) (c : ResultCode)
    (b : List Byte) : SessionsOk (respond p c b s) := (respond_calm c b hr).keeps h

theorem SessionsOk.answer {s : State} (h : SessionsOk s) {p : Port} (hr : s.reads.get p = none) (c : ResultCode)
    (b : List Byte) : SessionsOk (answer p c b s) := (answer_calm c b hr).keeps h

namespace Accepted

variable {s t : State} {p : Port}

/-- What the service does besides the sessions, the queue, the reads and the ports. -/
theorem only {h : Homes} (a : Accepted s p) (x : Only h s t) (hh : h.le calmHomes = true) : Accepted t p := by
  have y := x.mono hh
  exact ⟨(x.calm hh).keeps a.ok, by rw [y.ports rfl]; exact a.inProgress, by rw [y.ports rfl]; exact a.due,
    by rw [y.reads rfl]; exact a.noRead⟩

theorem respond (a : Accepted s p) (c : ResultCode) (b : List Byte) : SessionsOk (Machine.respond p c b s) :=
  a.ok.respond a.noRead c b

theorem refuse (a : Accepted s p) (c : ResultCode) : SessionsOk (Machine.refuse p c s) := a.respond c []

/-- The session is in the state that the check asks for (R41). -/
theorem whenSession {st : SessionState} {serve : State → State} (a : Accepted s p)
    (h : (s.sessions.get p).state = st → SessionsOk (serve s)) : SessionsOk (Machine.whenSession p st serve s) := by
  unfold Machine.whenSession
  split
  · exact h ‹_›
  · exact a.refuse _

/-- The request becomes the port's read; that of an OPEN finds the session IDLE (R44, R103). -/
theorem startRead {k : ReadKind} (a : Accepted s p) (hk : k = .openCopy → (s.sessions.get p).state = .idle) (r : RecNo)
    (e : LayoutEntry) (c : Plane) : SessionsOk (Machine.startRead p k r e c s) := by
  refine (joinRead_calm c p _).keeps ⟨⟨a.ok.book.booked, a.ok.book.rest⟩, fun q rd hq => ?_⟩
  rw [setRead_reads, PerPort.get_set] at hq
  split at hq
  · subst_vars
    obtain rfl := Option.some.inj hq
    exact ⟨a.inProgress, a.due, hk⟩
  · exact a.ok.reads q rd hq

/-- The session, IDLE or STAGING, becomes IDLE or STAGING, and the request is answered. -/
theorem setSession {x : Session} (a : Accepted s p)
    (hs : (s.sessions.get p).state = .idle ∨ (s.sessions.get p).state = .staging) (hx : Booked x [] none)
    (c : ResultCode) (b : List Byte) : SessionsOk (Machine.respond p c b (Machine.setSession p x s)) :=
  (a.ok.setSession_free a.noRead hs hx).respond a.noRead c b

/-- The entry of an IDLE or STAGING session joins the queue (R58, R59). -/
theorem enqueue {w : Work} (a : Accepted s p)
    (hs : (s.sessions.get p).state = .idle ∨ (s.sessions.get p).state = .staging)
    (hw : ∀ op, w = .layout op → (s.sessions.get p).state = .idle) : SessionsOk (Machine.enqueue p w s) := by
  have queued : Booked { sessionOf s p with state := .queued } [⟨p, w⟩] none :=
    .queued rfl fun op hop => (a.ok.book.booked p).of_idle (hw op hop)
  exact (a.ok.enqueued a.noRead hs queued).respond a.noRead _ _

theorem storeStaged (a : Accepted s p) (hs : (s.sessions.get p).state = .staging) (n o : Nat) (data : List Byte) :
    SessionsOk (Machine.storeStaged p n o data s) := by
  refine SessionsOk.respond (a.ok.setSession_free a.noRead (.inr hs) (.staging ?_)) a.noRead _ _
  exact hs

/-- The checks of R129 before the operation's own: the session is IDLE. -/
theorem serveLayout {α : Type} {admitted : Bool} {operand : Option α} {own : α → State → State} (a : Accepted s p)
    (h : (s.sessions.get p).state = .idle → ∀ x, SessionsOk (own x s)) :
    SessionsOk (Machine.serveLayout p admitted operand own s) :=
  refuseIf_cases a.refuse fun _ => refuseIf_cases a.refuse fun _ => a.whenSession fun hs =>
    withBody_cases a.refuse (h hs)

/-- Checks 6 and 7 of R129, then the layout entry of an IDLE session joins the queue. -/
theorem acceptLayout (a : Accepted s p) (hs : (s.sessions.get p).state = .idle) (op : LayoutOp)
    {effect : State → State} (he : ∀ u, Calm u (effect u)) : SessionsOk (Machine.acceptLayout p op effect s) :=
  acceptLayout_cases a.refuse ((he _).keeps (a.enqueue (.inl hs) fun _ _ => hs))

/-! ### The services -/

theorem serveNop (a : Accepted s p) (body : List Byte) : SessionsOk (Machine.serveNop p body s) :=
  whenReady_cases a.refuse fun _ => a.respond _ _

theorem serveQueryRecord (a : Accepted s p) (body : List Byte) : SessionsOk (Machine.serveQueryRecord p body s) :=
  whenReady_cases a.refuse fun _ => withBody_cases a.refuse fun _ => a.respond _ _

theorem serveDeviceStatus (a : Accepted s p) (body : List Byte) : SessionsOk (Machine.serveDeviceStatus p body s) :=
  withBody_cases a.refuse fun _ => a.respond _ _

theorem serveReadRecord (a : Accepted s p) (body : List Byte) : SessionsOk (Machine.serveReadRecord p body s) :=
  whenReady_cases a.refuse fun _ => withBody_cases a.refuse fun _ => withRecord_cases a.refuse fun _ _ =>
    refuseIf_cases a.refuse fun _ => withContent_cases a.refuse fun _ => refuseIf_cases a.refuse fun _ =>
    a.startRead (by simp) _ _ _

/-- OPEN: STAGING at once, or a read in progress with the session IDLE (R43, R44). -/
theorem serveOpenRecord (a : Accepted s p) (body : List Byte) : SessionsOk (Machine.serveOpenRecord p body s) := by
  refine whenReady_cases a.refuse fun _ => a.whenSession fun idle => withBody_cases a.refuse fun (r, m) =>
    withRecord_cases a.refuse fun e _ => refuseIf_cases a.refuse fun _ => refuseIf_cases a.refuse fun _ => ?_
  cases m with
  | blank => exact a.setSession (.inl idle) (.staging rfl) _ _
  | copy => exact withContent_cases a.refuse fun _ => a.startRead (fun _ => idle) _ _ _

theorem serveStage (a : Accepted s p) (body : List Byte) : SessionsOk (Machine.serveStage p body s) := by
  refine whenReady_cases a.refuse fun _ => a.whenSession fun staging => ?_
  repeat' split
  · exact a.storeStaged staging _ _ _
  · exact a.respond _ _
  · exact a.respond _ _

theorem serveAppend (a : Accepted s p) (body : List Byte) : SessionsOk (Machine.serveAppend p body s) :=
  whenReady_cases a.refuse fun _ => a.whenSession fun staging => withBody_cases a.refuse fun _ =>
    a.storeStaged staging _ _ _

theorem serveCommit (a : Accepted s p) (body : List Byte) : SessionsOk (Machine.serveCommit p body s) := by
  refine whenReady_cases a.refuse fun _ => a.whenSession fun staging => withBody_cases a.refuse fun _ =>
    refuseIf_cases a.refuse fun _ => refuseIf_cases a.refuse fun _ => refuseIf_cases a.refuse fun _ => ?_
  unfold acceptCommit
  split
  · exact a.enqueue (.inr staging) (by simp)
  · exact a.refuse _

/-- ABANDON: the session becomes IDLE from STAGING, or from QUEUED with its entry removed (R51, R52). -/
theorem serveAbandon (a : Accepted s p) (body : List Byte) : SessionsOk (Machine.serveAbandon p body s) := by
  refine whenReady_cases a.refuse fun _ => withBody_cases a.refuse fun _ => ?_
  split
  · exact a.respond _ _
  · rename_i staging
    exact a.setSession (.inr staging) booked_reset _ _
  · rename_i queued
    refine (a.ok.abandoned queued).respond ?_ _ _
    rw [setSession_reads, (removeEntry_only p s).reads rfl]
    exact a.noRead
  · exact a.refuse _

theorem serveFetchCommitResult (a : Accepted s p) (body : List Byte) :
    SessionsOk (Machine.serveFetchCommitResult p body s) := by
  refine whenReady_cases a.refuse fun _ => withBody_cases a.refuse fun _ => ?_
  split
  · exact a.respond _ _
  · exact a.refuse _

theorem setLock (a : Accepted s p) (r : RecNo) (l : Lock) : Accepted (Machine.setLock r l s) p :=
  a.only (setLock_only r l s) (by decide)

theorem lockRecord (a : Accepted s p) (r : RecNo) (lease wait : Nat) :
    SessionsOk (Machine.lockRecord p r lease wait s) := by
  simp only [Machine.lockRecord]
  repeat' split
  · exact (a.setLock _ _).respond _ _
  · exact (a.setLock _ _).respond _ _
  · exact a.respond _ _
  · exact a.refuse _
  · exact (a.setLock _ _).respond _ _

theorem serveLock (a : Accepted s p) (body : List Byte) : SessionsOk (Machine.serveLock p body s) :=
  whenReady_cases a.refuse fun _ => withBody_cases a.refuse fun _ => withRecord_cases a.refuse fun _ _ =>
    refuseIf_cases a.refuse fun _ => refuseIf_cases a.refuse fun _ => a.lockRecord _ _ _

theorem unlockRecord (a : Accepted s p) (r : RecNo) : SessionsOk (Machine.unlockRecord p r s) := by
  simp only [Machine.unlockRecord]
  repeat' split
  · exact (a.only (handOn_only _ _) (by decide)).respond _ _
  · exact (a.setLock _ _).respond _ _
  · exact a.refuse _

theorem serveUnlock (a : Accepted s p) (body : List Byte) : SessionsOk (Machine.serveUnlock p body s) :=
  whenReady_cases a.refuse fun _ => withBody_cases a.refuse fun _ => withRecord_cases a.refuse fun _ _ => a.unlockRecord _

theorem serveFetchLockReport (a : Accepted s p) (body : List Byte) :
    SessionsOk (Machine.serveFetchLockReport p body s) :=
  whenReady_cases a.refuse fun _ => withBody_cases a.refuse fun _ => a.respond _ _

theorem serveWatch (a : Accepted s p) (body : List Byte) : SessionsOk (Machine.serveWatch p body s) :=
  whenReady_cases a.refuse fun _ => withBody_cases a.refuse fun _ => withRecord_cases a.refuse fun _ _ =>
    refuseIf_cases a.refuse fun _ => (a.only (setSlot_only _ _ _) (by decide)).respond _ _

theorem serveUnwatch (a : Accepted s p) (body : List Byte) : SessionsOk (Machine.serveUnwatch p body s) :=
  whenReady_cases a.refuse fun _ => withBody_cases a.refuse fun _ =>
    (a.only (stopWatching_only _ _ _) (by decide)).respond _ _

theorem serveFetchNotice (a : Accepted s p) (body : List Byte) : SessionsOk (Machine.serveFetchNotice p body s) := by
  refine whenReady_cases a.refuse fun _ => withBody_cases a.refuse fun _ => ?_
  split
  · exact a.refuse _
  · exact (a.only (setNotices_only _ _ _) (by decide)).respond _ _

theorem serveAcknowledge (a : Accepted s p) (body : List Byte) : SessionsOk (Machine.serveAcknowledge p body s) :=
  withBody_cases a.refuse fun _ => (a.only (setFlags_only _ _ _) (by decide)).respond _ _

theorem serveSetAttentionMask (a : Accepted s p) (body : List Byte) :
    SessionsOk (Machine.serveSetAttentionMask p body s) :=
  withBody_cases a.refuse fun _ => (a.only (setMask_only _ _ _) (by decide)).respond _ _

theorem serveFormat (a : Accepted s p) (body : List Byte) : SessionsOk (Machine.serveFormat p body s) :=
  a.serveLayout fun idle _ => refuseIf_cases a.refuse fun _ => a.acceptLayout idle _ Calm.refl

theorem serveDefine (a : Accepted s p) (body : List Byte) : SessionsOk (Machine.serveDefine p body s) :=
  a.serveLayout fun idle _ => refuseIf_cases a.refuse fun _ => refuseIf_cases a.refuse fun _ =>
    refuseIf_cases a.refuse fun _ => a.acceptLayout idle _ Calm.refl

/-- DELETE: the OPENs of the record that wait are refused (R45, R132). -/
theorem serveDelete (a : Accepted s p) (body : List Byte) : SessionsOk (Machine.serveDelete p body s) := by
  have marked : ∀ r u, Calm u (markDeleted r u) := fun r u =>
    ((setSlot_only r _ u).calm (by decide)).trans (Calm.forPorts (refuseOpen_calm r) _)
  exact a.serveLayout fun idle r => withRecord_cases a.refuse fun _ _ => refuseIf_cases a.refuse fun _ =>
    a.acceptLayout idle _ (marked r)

theorem serveSetAccess (a : Accepted s p) (body : List Byte) : SessionsOk (Machine.serveSetAccess p body s) :=
  a.serveLayout fun idle _ => withRecord_cases a.refuse fun _ _ => a.acceptLayout idle _ Calm.refl

theorem serveRestart (a : Accepted s p) (body : List Byte) : SessionsOk (Machine.serveRestart p body s) :=
  refuseIf_cases a.refuse fun _ => refuseIf_cases a.refuse fun _ => withBody_cases a.refuse fun _ =>
    (a.only (setRc_only _ _) (by decide)).respond _ _

end Accepted

/-! ### Frames -/

namespace SessionsOk

variable {s : State}

theorem riseFrame (h : SessionsOk s) (p : Port) (bytes : List Byte) (extra : Nat) {judge : State → State}
    (x : ∀ u, SessionsOk u → SessionsOk (judge u)) : SessionsOk (Machine.riseFrame p bytes extra judge s) := by
  have ends := (endFrame_calm p s).keeps h
  unfold Machine.riseFrame
  repeat' split
  exacts [ends, x _ ends, h, ends, h]

theorem takeFrame (h : SessionsOk s) (p : Port) (bytes : List Byte) (extra : Nat) {judge : State → State}
    (part : FramePart) (x : ∀ u, SessionsOk u → SessionsOk (judge u)) :
    SessionsOk (Machine.takeFrame p bytes extra judge part s) := by
  cases part with
  | whole => exact (((fallFrame_calm p s).trans (clockFrame_calm p bytes extra _)).keeps h).riseFrame p bytes extra x
  | fall => exact (fallFrame_calm p s).keeps h
  | clock => exact (clockFrame_calm p bytes extra s).keeps h
  | rise => exact h.riseFrame p bytes extra x
  | reply => exact h

/-- A request's frame, or a part of one. -/
theorem takeRequest (h : SessionsOk s) (c : RequestCode) (p : Port) (tag : Byte) (body : List Byte) (part : FramePart)
    {serve : State → State} (x : ∀ u, Accepted u p → SessionsOk (serve u)) :
    SessionsOk (Machine.takeRequest c p tag body part serve s) := by
  have judged : ∀ u, SessionsOk u → SessionsOk (judgeRequest p tag body serve u) := fun u hu => by
    unfold judgeRequest
    repeat' split
    · exact (recordOutcome_calm p _ u).keeps hu
    · exact (recordOutcome_calm p _ u).keeps hu
    · rename_i hp
      exact x _ (acceptRequest_accepted tag hu (by simpa using hp))
  have taken := h.takeFrame p (requestFrameBytes c tag body) 0 part judged
  have written := taken.writeReply p
  unfold Machine.takeRequest
  cases part with
  | whole => simp only; split; exacts [taken, written]
  | reply => simp only; split; exacts [written, taken]
  | fall | clock | rise => exact taken

end SessionsOk

end Sys2Proof.Machine

namespace Sys2Proof.Machine

open Sys2Proof

/-! ## Every command -/

theorem endMount_calm (d : DeviceState) (s : State) : Calm s (endMount d s) := (endMount_only d s).calm (by decide)

theorem mountOn_calm (r : RecNo) (s : State) : Calm s (mountOn r s) := by
  unfold mountOn
  split
  · exact (setMount_only _ s).calm (by decide)
  · exact endMount_calm _ s

/-- Nothing of the sessions, the queue, the engine, the reads or the ports outlives a device reset (R142). -/
theorem deviceReset_sessionsOk (src : ResetSource) (cut : PageBytes) (s : State) : SessionsOk (deviceReset src cut s) := by
  obtain ⟨-, -, -, -, queue, reads, staging, -⟩ := resetHoldsTheInvariants
  have reset : SessionsOk State.reset := (sessionsOk_iff _).mpr ⟨queue, reads, staging⟩
  have same : Calm State.reset (deviceReset src cut s) := ⟨rfl, rfl, rfl, rfl, id, .of_eq rfl rfl rfl⟩
  exact same.keeps reset

/-- The transport state of a cleared port is reset, and its read is gone (R110, R163). -/
theorem clearRead_calm (p : Port) (s : State) : Calm s (clearRead p (clearTransport p s)) := by
  have x := clearRead_only p (clearTransport p s)
  have reads : (clearRead p (clearTransport p s)).reads = s.reads.set p none := clearRead_reads p _
  refine ⟨x.sessions rfl, x.queue rfl, by rw [x.engine rfl]; rfl, by rw [x.engine rfl]; rfl, by rw [x.engine rfl]; exact id,
    fun q rd hq => ?_⟩
  rw [reads, PerPort.get_set] at hq
  split at hq
  · contradiction
  · rename_i hp
    have port : (clearRead p (clearTransport p s)).ports.get q = s.ports.get q := by
      rw [x.ports rfl]
      exact PerPort.get_set_ne _ _ _ _ hp
    rw [port, x.sessions rfl]
    exact ⟨⟨rd, hq, rfl⟩, rfl, rfl, id⟩

namespace SessionsOk

variable {s t : State}

theorem clearPort (h : SessionsOk s) (p : Port) : SessionsOk (Machine.clearPort p s) := by
  have cleared := ((clearRead_calm p s).keeps h).cleared (p := p)
  have others : ∀ u, Calm u (clearNotices p (leaveWatchSets p (clearLocks p (setResult p none u)))) := fun u =>
    ((((setResult_only p none u).calm (by decide)).trans ((clearLocks_only p _).calm (by decide))).trans
      ((leaveWatchSets_only p _).calm (by decide))).trans ((clearNotices_only p _).calm (by decide))
  exact (others _).keeps cleared

/-- A read is over, and its plane granted on (R34): the port reads nothing. -/
theorem tenureEnded (h : SessionsOk s) (pl : Plane) (p : Port) :
    SessionsOk (endTenure pl (setRead p none s)) ∧ (endTenure pl (setRead p none s)).reads.get p = none := by
  have granted := endTenure_calm pl (setRead p none s)
  exact ⟨((setRead_none_calm p s).trans granted).keeps h, granted.reads.noRead (by simp)⟩

theorem readTenureEnd {pl : Plane} (h : SessionsOk s) (hx : execReadTenureEnd pl s = .next t) : SessionsOk t := by
  unfold execReadTenureEnd at hx
  repeat' split at hx
  all_goals first | contradiction | obtain rfl := Host.Outcome.next.inj hx
  · obtain ⟨ended, noRead⟩ := h.tenureEnded pl _
    exact ended.answer noRead _ _
  · exact h
  · exact h
  · exact h
  · exact (endTenure_calm _ s).keeps h
  · exact h

/-- The end of an OPEN COPY tenure: the session, IDLE until then, is STAGING, or stays IDLE (R44, R45). -/
theorem openCopyLoad {pl : Plane} (h : SessionsOk s) (hx : execOpenCopyLoad pl s = .next t) : SessionsOk t := by
  unfold execOpenCopyLoad at hx
  split at hx
  · rename_i p _
    obtain ⟨ended, noRead⟩ := h.tenureEnded pl p
    repeat' split at hx
    all_goals first | contradiction | obtain rfl := Host.Outcome.next.inj hx
    · exact ended.answer noRead _ _
    · rename_i rd hrd _ hk _ _ _
      obtain ⟨-, -, idle⟩ := h.reads p rd hrd
      have sessions : (endTenure pl (setRead p none s)).sessions = s.sessions := (endTenure_only pl _).sessions rfl
      refine SessionsOk.answer (ended.setSession_free noRead (.inl ?_) (.staging rfl)) noRead _ _
      rw [sessions]
      exact idle hk
    · exact h
    · exact h
    · exact h
  · obtain rfl := Host.Outcome.next.inj hx
    exact (endTenure_calm _ s).keeps h
  · obtain rfl := Host.Outcome.next.inj hx
    exact h

theorem engineStart (h : SessionsOk s) (hx : execEngineStart s = .next t) : SessionsOk t := by
  obtain rfl := Host.Outcome.next.inj hx
  split
  · rename_i allowed
    have idle : s.engine.state = .idle := by
      simp only [startAllowed, Bool.and_eq_true, decide_eq_true_eq] at allowed
      obtain ⟨⟨⟨idle, -⟩, -⟩, -⟩ := allowed
      exact idle
    split
    · exact h.start ‹_› idle
    · exact h
  · exact h

theorem eraseAttemptDone {raised : PageBytes} (h : SessionsOk s) (hx : execEraseAttemptDone raised s = .next t) :
    SessionsOk t := by
  unfold execEraseAttemptDone at hx
  repeat' split at hx
  all_goals first | contradiction | obtain rfl := Host.Outcome.next.inj hx
  · exact h.attempted ‹_› _ _ _ _ _
  · exact h
  · exact h

theorem programAttemptDone {cleared : PageBytes} (h : SessionsOk s) (hx : execProgramAttemptDone cleared s = .next t) :
    SessionsOk t := by
  unfold execProgramAttemptDone at hx
  repeat' split at hx
  all_goals first | contradiction | obtain rfl := Host.Outcome.next.inj hx
  · exact h.attempted ‹_› _ _ _ _ _
  · exact h
  · exact h

theorem invalidationStep {cleared : PageBytes} (h : SessionsOk s) (hx : execInvalidationStep cleared s = .next t) :
    SessionsOk t := by
  unfold execInvalidationStep at hx
  repeat' split at hx
  all_goals first | contradiction | obtain rfl := Host.Outcome.next.inj hx
  · exact ((leavePage_calm _ _ _ s).keeps h).failFault (by rwa [leavePage_engine])
  · exact h
  · exact h

theorem portClear {p : Port} (h : SessionsOk s) (hx : execPortClear p s = .next t) : SessionsOk t := by
  have low : Calm s { s with clearLow := s.clearLow.set p true } :=
    Only.calm (h := { clearLow := true }) (.ofEq rfl) (by decide)
  obtain rfl := Host.Outcome.next.inj hx
  simp only
  repeat' split
  · exact h
  · exact low.keeps h
  · exact (low.keeps h).clearPort p

end SessionsOk

theorem execMountStart_calm {s t : State} (h : execMountStart s = .next t) : Calm s t := by
  obtain rfl := Host.Outcome.next.inj h
  split
  · exact Only.calm (h := { arbiters := true, rc := true, mount := true }) (.ofEq rfl) (by decide)
  · exact .refl s

theorem execMountLayoutSelected_calm {s t : State} (h : execMountLayoutSelected s = .next t) : Calm s t := by
  obtain rfl := Host.Outcome.next.inj h
  split
  · split
    · exact endMount_calm _ s
    · exact endMount_calm _ s
    · rename_i v entries hs
      have loaded : Calm s (mounted s v entries) := Only.calm (h := { dir := true }) (.ofEq rfl) (by decide)
      refine loaded.trans ?_
      dsimp only
      split
      · exact (setMount_only _ _).calm (by decide)
      · exact endMount_calm _ _
  · exact .refl s

theorem execMountSlotSet_calm {s t : State} (h : execMountSlotSet s = .next t) : Calm s t := by
  unfold execMountSlotSet at h
  repeat' split at h
  all_goals first | contradiction | obtain rfl := Host.Outcome.next.inj h
  · exact ((setSlot_only _ _ s).calm (by decide)).trans (mountOn_calm _ _)
  · exact .refl s
  · exact endMount_calm _ s
  · exact .refl s

theorem execSupplyWarningRaised_calm {s t : State} (h : execSupplyWarningRaised s = .next t) : Calm s t := by
  have rc : ∀ x u, Calm u (setRc x u) := fun x u => (setRc_only x u).calm (by decide)
  obtain rfl := Host.Outcome.next.inj h
  repeat' split
  · exact .refl s
  · exact rc _ s
  · exact rc _ s
  · exact (rc _ s).trans (Calm.forPorts (fun p u => (setFlags_only p _ u).calm (by decide)) _)

theorem execLeaseExpiry_calm {r : RecNo} {s t : State} (h : execLeaseExpiry r s = .next t) : Calm s t := by
  obtain rfl := Host.Outcome.next.inj h
  repeat' split
  · exact Calm.trans (Only.calm (h := { reports := true, flags := true }) (.ofEq rfl) (by decide))
      ((handOn_only r _).calm (by decide))
  · exact .refl s
  · exact .refl s

theorem SessionsOk.exec {i : Instr} {s t : State} (h : SessionsOk s) (hx : exec i s = .next t) : SessionsOk t := by
  have request : ∀ {c p tag body part serve}, (∀ u, Accepted u p → SessionsOk (serve u)) →
      (.next (Machine.takeRequest c p tag body part serve s) : Host.Outcome State Fault Refusal) = .next t →
      SessionsOk t := fun x ht => Host.Outcome.next.inj ht ▸ h.takeRequest _ _ _ _ _ x
  have frame : ∀ {p bytes extra judge part}, (∀ u, SessionsOk u → SessionsOk (judge u)) →
      (.next (Machine.takeFrame p bytes extra judge part s) : Host.Outcome State Fault Refusal) = .next t →
      SessionsOk t := fun x ht => Host.Outcome.next.inj ht ▸ h.takeFrame _ _ _ _ x
  have calm : Calm s t → SessionsOk t := fun x => x.keeps h
  cases i with
  | nop p tag body part => exact request (fun _ a => a.serveNop body) hx
  | queryRecord p tag body part => exact request (fun _ a => a.serveQueryRecord body) hx
  | readRecord p tag body part => exact request (fun _ a => a.serveReadRecord body) hx
  | deviceStatus p tag body part => exact request (fun _ a => a.serveDeviceStatus body) hx
  | openRecord p tag body part => exact request (fun _ a => a.serveOpenRecord body) hx
  | stage p tag body part => exact request (fun _ a => a.serveStage body) hx
  | append p tag body part => exact request (fun _ a => a.serveAppend body) hx
  | commit p tag body part => exact request (fun _ a => a.serveCommit body) hx
  | abandon p tag body part => exact request (fun _ a => a.serveAbandon body) hx
  | fetchCommitResult p tag body part => exact request (fun _ a => a.serveFetchCommitResult body) hx
  | lock p tag body part => exact request (fun _ a => a.serveLock body) hx
  | unlock p tag body part => exact request (fun _ a => a.serveUnlock body) hx
  | fetchLockReport p tag body part => exact request (fun _ a => a.serveFetchLockReport body) hx
  | watch p tag body part => exact request (fun _ a => a.serveWatch body) hx
  | unwatch p tag body part => exact request (fun _ a => a.serveUnwatch body) hx
  | fetchNotice p tag body part => exact request (fun _ a => a.serveFetchNotice body) hx
  | acknowledge p tag body part => exact request (fun _ a => a.serveAcknowledge body) hx
  | setAttentionMask p tag body part => exact request (fun _ a => a.serveSetAttentionMask body) hx
  | format p tag body part => exact request (fun _ a => a.serveFormat body) hx
  | define p tag body part => exact request (fun _ a => a.serveDefine body) hx
  | delete p tag body part => exact request (fun _ a => a.serveDelete body) hx
  | setAccess p tag body part => exact request (fun _ a => a.serveSetAccess body) hx
  | restart p tag body part => exact request (fun _ a => a.serveRestart body) hx
  | fetch p sent part => exact frame (fun _ hu => hu) hx
  | poll p sent part => exact frame (fun _ hu => hu) hx
  | frameError p bytes extra part =>
    simp only [Machine.exec, execFrameError] at hx
    split at hx
    · exact frame (fun u hu => (recordOutcome_calm p _ u).keeps hu) hx
    · exact frame (fun _ hu => hu) hx
  | readTenureEnd pl => exact h.readTenureEnd hx
  | openCopyLoad pl => exact h.openCopyLoad hx
  | engineStart => exact h.engineStart hx
  | eraseAttemptDone raised => exact h.eraseAttemptDone hx
  | programAttemptDone cleared => exact h.programAttemptDone hx
  | invalidationStep cleared => exact h.invalidationStep hx
  | timebasePeriodEnd =>
    obtain rfl := Host.Outcome.next.inj hx
    exact (Only.calm (h := { locks := true }) (.ofEq rfl) (by decide)).keeps h
  | leaseExpiry r => exact calm (execLeaseExpiry_calm hx)
  | waitExpiry r p =>
    obtain rfl := Host.Outcome.next.inj hx
    split
    · exact (Only.calm (h := { locks := true, reports := true, flags := true }) (.ofEq rfl) (by decide)).keeps h
    · exact h
  | supplyWarningRaised => exact calm (execSupplyWarningRaised_calm hx)
  | supplyWarningRemoved =>
    obtain rfl := Host.Outcome.next.inj hx
    split
    · exact ((setRc_only _ s).calm (by decide)).keeps h
    · exact h
  | portClear p => exact h.portClear hx
  | portClearRelease p csLow =>
    obtain rfl := Host.Outcome.next.inj hx
    split
    · refine (findChipSelect_calm p csLow _).keeps (Calm.keeps ?_ h)
      exact Only.calm (h := { clearLow := true }) (.ofEq rfl) (by decide)
    · exact h
  | powerOnReset cut => exact Host.Outcome.next.inj hx ▸ deviceReset_sessionsOk _ cut s
  | supplyReset cut => exact Host.Outcome.next.inj hx ▸ deviceReset_sessionsOk _ cut s
  | pinReset cut =>
    obtain rfl := Host.Outcome.next.inj hx
    split
    · exact h
    · exact deviceReset_sessionsOk _ cut s
  | restartReset cut =>
    obtain rfl := Host.Outcome.next.inj hx
    split
    · exact deviceReset_sessionsOk _ cut s
    · exact h
  | resetRelease straps csLow =>
    obtain rfl := Host.Outcome.next.inj hx
    split
    · refine (Calm.forPorts (fun p u => findChipSelect_calm p _ u) _).keeps (Calm.keeps ?_ h)
      exact (setRc_only _ s).calm (by decide)
    · exact h
  | mountStart => exact calm (execMountStart_calm hx)
  | mountLayoutSelected => exact calm (execMountLayoutSelected_calm hx)
  | mountSlotSet => exact calm (execMountSlotSet_calm hx)
  | sourceLetsGo src =>
    obtain rfl := Host.Outcome.next.inj hx
    split
    · exact ((setRc_only _ s).calm (by decide)).keeps h
    · exact h

/-- Settles O55: port by port the four ways in which session, queue and engine agree, kept by every command. -/
theorem sessionsStayOk : Obligations.SessionsStayOk := by
  intro s s' h hs
  rw [← sessionsOk_iff] at h ⊢
  rcases step_cases hs with ⟨-, rfl⟩ | ⟨i, rest, -, hx⟩
  · exact h
  · have waiting : Calm s { s with pending := rest } := Only.calm (h := { pending := true }) (.ofEq rfl) (by decide)
    exact (waiting.keeps h).exec hx

end Sys2Proof.Machine

namespace Sys2Proof.Machine

open Sys2Proof

/-! ## The checks of a request, passed and failed -/

section Checked

variable {p : Port} {u : State}

@[simp] theorem whenReady_ready {serve : State → State} (h : u.device = .ready) : whenReady p serve u = serve u := if_pos h

@[simp] theorem whenSession_of_eq {st : SessionState} {serve : State → State} (h : (u.sessions.get p).state = st) :
    whenSession p st serve u = serve u := if_pos h

@[simp] theorem whenSession_of_ne {st : SessionState} {serve : State → State} (h : (u.sessions.get p).state ≠ st) :
    whenSession p st serve u = refuse p .state u := if_neg h

@[simp] theorem withBody_some {α : Type} {operand : Option α} {serve : α → State → State} {x : α}
    (h : operand = some x) : withBody p operand serve u = serve x u := by rw [h]; rfl

@[simp] theorem withBody_none {α : Type} {operand : Option α} {serve : α → State → State} (h : operand = none) :
    withBody p operand serve u = refuse p .range u := by rw [h]; rfl

@[simp] theorem withRecord_defined {r : RecNo} {e : LayoutEntry} {serve : LayoutEntry → State → State}
    (h : (slotOf u r).entry = some e) : withRecord p r serve u = serve e u := by rw [withRecord, h]

@[simp] theorem withRecord_undefined {r : RecNo} {serve : LayoutEntry → State → State}
    (h : (slotOf u r).entry = none) : withRecord p r serve u = refuse p .noRecord u := by rw [withRecord, h]

@[simp] theorem refuseIf_true {c : ResultCode} {serve : State → State} : refuseIf true p c serve u = refuse p c u := rfl

@[simp] theorem refuseIf_false {c : ResultCode} {serve : State → State} : refuseIf false p c serve u = serve u := rfl

@[simp] theorem withContent_valid {r : RecNo} {c : Plane} {g : Gen} {serve : Plane → State → State}
    (h : (slotOf u r).content = .valid c g) : withContent p r serve u = serve c u := by rw [withContent, h]

@[simp] theorem withContent_empty {r : RecNo} {serve : Plane → State → State} (h : (slotOf u r).content = .empty) :
    withContent p r serve u = refuse p .empty u := by rw [withContent, h]

@[simp] theorem withContent_damaged {r : RecNo} {serve : Plane → State → State} (h : (slotOf u r).content = .damaged) :
    withContent p r serve u = refuse p .damaged u := by rw [withContent, h]

end Checked

/-! ## OPEN (R42, R43, R44) -/

theorem exec_openRecord {s : State} {p : Port} (tag : Byte) {body : List Byte} (h : CanServe s p)
    (hb : body.length ≤ 252) :
    exec (.openRecord p tag body) s = .next (writeReply p (serveOpenRecord p body (awaiting s p tag body))) :=
  congrArg Host.Outcome.next (takeRequest_accepted _ _ _ _ _ _ h.1 hb)

theorem openBody_none_of_length {body : List Byte} (h : body.length ≠ 2) : openBody body = none := by
  match body with
  | [] | [_] | _ :: _ :: _ :: _ => rfl
  | [_, _] => exact absurd rfl h

theorem openBody_none_of_code {rb m : Byte} (h : 128 ≤ rb.toNat ∨ 2 ≤ m.toNat) : openBody [rb, m] = none := by
  rcases h with h | h
  · simp only [openBody, (recordOfByte_none rb).mpr h]
  · simp only [openBody, (modeOfByte_none m).mpr h]
    cases recordOfByte rb <;> rfl

theorem openBody_recByte (r : RecNo) {m : Byte} {mode : OpenMode} (h : modeOfByte m = some mode) :
    openBody [recByte r, m] = some (r, mode) := by
  simp only [openBody, recordOfByte_recByte, h]

theorem serveOpenRecord_state {p : Port} {u : State} (body : List Byte) (hd : u.device = .ready)
    (hs : (u.sessions.get p).state ≠ .idle) : serveOpenRecord p body u = refuse p .state u := by
  rw [serveOpenRecord, whenReady_ready hd, whenSession_of_ne hs]

theorem serveOpenRecord_range {p : Port} {u : State} {body : List Byte} (hd : u.device = .ready)
    (hs : (u.sessions.get p).state = .idle) (hb : openBody body = none) :
    serveOpenRecord p body u = refuse p .range u := by
  rw [serveOpenRecord, whenReady_ready hd, whenSession_of_eq hs, withBody_none hb]

section Opened

variable {p : Port} {u : State} {body : List Byte} {r : RecNo} {m : OpenMode} {e : LayoutEntry}
  (hd : u.device = .ready) (hs : (u.sessions.get p).state = .idle) (hb : openBody body = some (r, m))

include hd hs hb

theorem serveOpenRecord_undefined (he : (slotOf u r).entry = none) :
    serveOpenRecord p body u = refuse p .noRecord u := by
  simp [serveOpenRecord, hd, hs, hb, he]

theorem serveOpenRecord_noAccess (he : (slotOf u r).entry = some e) (hm : mayOpen e p m = false) :
    serveOpenRecord p body u = refuse p .noAccess u := by
  simp [serveOpenRecord, hd, hs, hb, he, hm]

theorem serveOpenRecord_inUse (he : (slotOf u r).entry = some e) (hm : mayOpen e p m = true)
    (hp : (slotOf u r).deletePending = true) : serveOpenRecord p body u = refuse p .inUse u := by
  simp [serveOpenRecord, hd, hs, hb, he, hm, hp]

/-- Past every check but that on the content, which COPY alone makes. -/
theorem serveOpenRecord_taken (he : (slotOf u r).entry = some e) (hm : mayOpen e p m = true)
    (hp : (slotOf u r).deletePending = false) :
    (m = .blank → serveOpenRecord p body u = openBlank p r e u) ∧
    (m = .copy → serveOpenRecord p body u = withContent p r (startRead p .openCopy r e) u) := by
  constructor <;> rintro rfl <;> simp [serveOpenRecord, hd, hs, hb, he, hm, hp]

end Opened

/-- An empty list makes an emptied buffer (R40). -/
theorem ofList_nil (n : Nat) (v : Byte) : Table.ofList n v [] = Table.fill n v :=
  Table.cells_injective (List.take_of_length_le (by simp))

theorem mayOpen_iff (e : LayoutEntry) (p : Port) (m : OpenMode) :
    mayOpen e p m = true ↔ e.writeSet.get p = true ∧ (m = .copy → e.readSet.get p = true) := by
  cases m <;> simp [mayOpen]

/-- The code of a mode. -/
theorem modeOfByte_cases {m : Byte} (h : m = 0 ∨ m = 1) : ∃ mode, modeOfByte m = some mode ∧ (m = 0 ↔ mode = .copy) := by
  rcases h with rfl | rfl
  · exact ⟨.copy, rfl, by simp⟩
  · exact ⟨.blank, rfl, by simp⟩

/-- OPEN in BLANK mode, taken (R43). -/
theorem exec_openBlank {s : State} {p : Port} (tag : Byte) {r : RecNo} {e : LayoutEntry} (h : CanServe s p)
    (hs : (s.sessions.get p).state = .idle) (he : (slotOf s r).entry = some e) (hw : e.writeSet.get p = true)
    (hp : (slotOf s r).deletePending = false) :
    exec (.openRecord p tag [recByte r, 1]) s = .next
      { answered s p tag [recByte r, 1] .ok (natByte e.length :: genBytes (slotOf s r).content.generation) with
        sessions := s.sessions.set p { state := .staging, record := some r,
                                       baseGen := (slotOf s r).content.generation, fill := 0, overrun := false,
                                       buffer := emptyBuffer } } := by
  have body : openBody [recByte r, 1] = some (r, .blank) := openBody_recByte r rfl
  have taken := (serveOpenRecord_taken (u := awaiting s p tag [recByte r, 1]) h.2 hs body he
    ((mayOpen_iff e p .blank).mpr ⟨hw, by simp⟩) hp).1 rfl
  rw [exec_openRecord tag h (by simp), taken, openBlank, beginStaging, ofList_nil]
  exact congrArg Host.Outcome.next (respond_awaiting p tag [recByte r, 1] _ _ s _ rfl)

/-- OPEN in COPY mode, taken: the request goes on as a read (R44). -/
theorem exec_openCopy {s : State} {p : Port} (tag : Byte) {r : RecNo} {e : LayoutEntry} {c : Plane} {g : Gen}
    (h : CanServe s p) (hs : (s.sessions.get p).state = .idle) (he : (slotOf s r).entry = some e)
    (hw : e.writeSet.get p = true) (hr : e.readSet.get p = true) (hp : (slotOf s r).deletePending = false)
    (hc : (slotOf s r).content = .valid c g) :
    exec (.openRecord p tag [recByte r, 0]) s = .next (joinRead c p { awaiting s p tag [recByte r, 0] with
      reads := s.reads.set p (some { kind := .openCopy, record := r, basePage := e.basePage, length := e.length,
                                     plane := c, phase := .waiting, inUse := false }) }) := by
  have body : openBody [recByte r, 0] = some (r, .copy) := openBody_recByte r rfl
  have taken := (serveOpenRecord_taken (u := awaiting s p tag [recByte r, 0]) h.2 hs body he
    ((mayOpen_iff e p .copy).mpr ⟨hw, fun _ => hr⟩) hp).2 rfl
  rw [exec_openRecord tag h (by simp), taken, withContent_valid (u := awaiting s p tag _) hc,
    writeReply_awaiting p tag [recByte r, 0] s _ ((startRead_only _ _ _ _ _ _).ports rfl)]
  rfl

/-- Settles O17: the checks one by one, then the two modes. -/
theorem opensAreTaken : Obligations.OpensAreTaken := by
  refine ⟨fun s p tag h => ⟨fun body hl hs => ?_, fun hs => ⟨fun body hl hb => ?_, fun rb m hb => ?_, fun r m hm => ?_⟩⟩,
    fun s p tag r e h hs he hw hp => ⟨exec_openBlank tag h hs he hw hp, fun c g hr hc =>
      exec_openCopy tag h hs he hw hr hp hc⟩⟩
  · rw [exec_openRecord tag h hl, serveOpenRecord_state (u := awaiting s p tag body) body h.2 hs, refuse_awaiting_self]
  · rw [exec_openRecord tag h hl, serveOpenRecord_range (u := awaiting s p tag body) h.2 hs
      (openBody_none_of_length hb), refuse_awaiting_self]
  · rw [exec_openRecord tag h (by simp), serveOpenRecord_range (u := awaiting s p tag [rb, m]) h.2 hs
      (openBody_none_of_code hb), refuse_awaiting_self]
  · obtain ⟨mode, hmode, hcopy⟩ := modeOfByte_cases hm
    have body := openBody_recByte r hmode
    have served := exec_openRecord tag (body := [recByte r, m]) h (by simp)
    refine ⟨fun he => ?_, fun e he => ⟨fun hrights => ?_, fun hw hr => ?_⟩⟩
    · rw [served, serveOpenRecord_undefined (u := awaiting s p tag _) h.2 hs body he, refuse_awaiting_self]
    · have refused : mayOpen e p mode = false := by
        rw [← Bool.not_eq_true, mayOpen_iff, ← hcopy]
        rcases hrights with hw | ⟨rfl, hr⟩
        · simp [hw]
        · simp [hr]
      rw [served, serveOpenRecord_noAccess (u := awaiting s p tag _) h.2 hs body he refused, refuse_awaiting_self]
    · have may : mayOpen e p mode = true := (mayOpen_iff e p mode).mpr ⟨hw, fun hc => hr (hcopy.mpr hc)⟩
      have taken := fun hp => (serveOpenRecord_taken (u := awaiting s p tag [recByte r, m]) h.2 hs body he may hp).2
      refine ⟨fun hp => ?_, fun hp hm hc => ?_, fun hp hm hc => ?_⟩
      · rw [served, serveOpenRecord_inUse (u := awaiting s p tag _) h.2 hs body he may hp, refuse_awaiting_self]
      · rw [served, taken hp (hcopy.mp hm), withContent_empty (u := awaiting s p tag _) hc, refuse_awaiting_self]
      · rw [served, taken hp (hcopy.mp hm), withContent_damaged (u := awaiting s p tag _) hc, refuse_awaiting_self]

end Sys2Proof.Machine

namespace Sys2Proof.Machine

open Sys2Proof

/-! ## ABANDON (R51, R52, R61) -/

theorem exec_abandon {s : State} {p : Port} (tag : Byte) {body : List Byte} (h : CanServe s p)
    (hb : body.length ≤ 252) :
    exec (.abandon p tag body) s = .next (writeReply p (serveAbandon p body (awaiting s p tag body))) :=
  congrArg Host.Outcome.next (takeRequest_accepted _ _ _ _ _ _ h.1 hb)

/-- ABANDON without a body, by the session's state. -/
theorem serveAbandon_ready {p : Port} {u : State} (hd : u.device = .ready) :
    ((u.sessions.get p).state = .idle → serveAbandon p [] u = respond p .ok [] u) ∧
    ((u.sessions.get p).state = .staging →
      serveAbandon p [] u = respond p .ok [] (setSession p Session.reset u)) ∧
    ((u.sessions.get p).state = .queued →
      serveAbandon p [] u = respond p .ok [] (setSession p Session.reset (removeEntry p u))) ∧
    ((u.sessions.get p).state = .programming → serveAbandon p [] u = refuse p .state u) := by
  have empty : emptyBody [] = some () := rfl
  refine ⟨fun hs => ?_, fun hs => ?_, fun hs => ?_, fun hs => ?_⟩
  all_goals
    rw [serveAbandon, whenReady_ready hd, withBody_some empty]
    simp only [sessionOf, hs]

theorem removeEntry_of_find {p : Port} {e : Entry} {u : State}
    (h : u.queue.find? (fun e => decide (e.port = p)) = some e) :
    removeEntry p u = undoEntry e (setQueue (u.queue.filter fun e => decide (e.port ≠ p)) u) := by
  simp only [removeEntry, h]

/-- An entry that is no DELETE has set nothing that its removal undoes (R52). -/
theorem undoEntry_of_not_delete {e : Entry} (h : ∀ r, e.work ≠ .layout (.delete r)) (u : State) :
    undoEntry e u = u := by
  unfold undoEntry
  split
  · exact absurd ‹_› (h _)
  · rfl

theorem undoEntry_delete {e : Entry} {r : RecNo} (h : e.work = .layout (.delete r)) (u : State) :
    undoEntry e u = setSlot r { slotOf u r with deletePending := false } u := by
  simp only [undoEntry, h, clearPending]

/-- Settles O21: the service by session state, and what the removal of the entry undoes. -/
theorem abandonBySession : Obligations.AbandonBySession := by
  intro s p tag h
  have served := exec_abandon tag (body := []) h (by simp)
  obtain ⟨idle, staging, queued, programming⟩ := serveAbandon_ready (p := p) (u := awaiting s p tag []) h.2
  refine ⟨fun body hl hb => ?_, fun hs => ?_, fun hs => ?_, fun hs => ?_, fun e hs he => ⟨fun hw => ?_, fun r hw => ?_⟩⟩
  · rw [exec_abandon tag h hl, serveAbandon, whenReady_ready (u := awaiting s p tag body) h.2,
      withBody_none (emptyBody_none body hb), refuse_awaiting_self]
  · rw [served, idle hs, respond_awaiting_self]
  · rw [served, programming hs, refuse_awaiting_self]
  · rw [served, staging hs]
    exact congrArg Host.Outcome.next (respond_awaiting p tag [] _ _ s _ rfl)
  · rw [served, queued hs, removeEntry_of_find (u := awaiting s p tag []) he, undoEntry_of_not_delete hw]
    exact congrArg Host.Outcome.next (respond_awaiting p tag [] _ _ s _ rfl)
  · rw [served, queued hs, removeEntry_of_find (u := awaiting s p tag []) he, undoEntry_delete hw]
    exact congrArg Host.Outcome.next (respond_awaiting p tag [] _ _ s _ rfl)

/-! ## The end of an OPEN COPY tenure (R44, R45, R110) -/

/-- The generation of what was read of an extent. -/
theorem imageGeneration_readExtent (m : Mem) (pl : Plane) (b length : Nat) :
    imageGeneration (readExtent m pl b (extentPages length)) =
      genOfBytes (memRead m (pageAddress pl b + 4)) (memRead m (pageAddress pl b + 5)) := by
  have pages := extentPages_pos length
  rw [imageGeneration, byteAt_readExtent _ _ _ _ _ (by omega), byteAt_readExtent _ _ _ _ _ (by omega)]

/-- The data bytes of what was read of an extent follow its first 8 bytes (R27). -/
theorem imageData_readExtent (m : Mem) (pl : Plane) (b : Nat) {length o n : Nat} (h : o + n ≤ length) :
    imageData (readExtent m pl b (extentPages length)) o n = memReadBytes m (pageAddress pl b + (8 + o)) n :=
  take_drop_memReadBytes _ _ _ _ _ (by unfold extentPages; omega)

/-- An OPEN COPY tenure that has come to its end. -/
theorem exec_openCopyLoad {s : State} {pl : Plane} {p : Port} {rd : Read} (hh : (s.arbiters.get pl).holder = .read p)
    (hr : s.reads.get p = some rd) (hk : rd.kind = .openCopy) (hph : rd.phase = .reading) (hpl : rd.plane = pl) :
    exec (.openCopyLoad pl) s =
      if extentInArray rd.basePage (extentPages rd.length) then
        .next (if rd.inUse then answer p .inUse [] (endTenure pl (setRead p none s))
          else answer p .ok (openReport rd.length (imageGeneration (readImage s rd)))
            (beginStaging p rd.record (imageGeneration (readImage s rd)) (imageData (readImage s rd) 0 rd.length)
              (endTenure pl (setRead p none s))))
      else .fault .pageOutsideArray := by
  simp only [exec, execOpenCopyLoad, arbiterOf, hh, hr, hk, hph, hpl, and_self, if_true]

/-- Settles O18: the answer is written in the state in which the plane has been granted on. -/
theorem openCopyLoads : Obligations.OpenCopyLoads := by
  refine fun s pl p rd tag => ⟨fun hh hr hk hph hpl hp => ?_, fun hh => ?_⟩
  · have granted := endTenure_only pl (setRead p none s)
    have ports : (endTenure pl (setRead p none s)).ports = s.ports := granted.ports rfl
    have inProgress : ((endTenure pl (setRead p none s)).ports.get p).inProgress = some tag := by rw [ports, hp]
    rw [exec_openCopyLoad hh hr hk hph hpl]
    refine ⟨fun hx hi => ?_, fun hx hi => ?_, fun hx => if_neg (by simp [hx])⟩
    · have sessions : (endTenure pl (setRead p none s)).sessions = s.sessions := granted.sessions rfl
      rw [if_pos hx, if_neg (by simp [hi]), answer_inProgress p tag _ _ (beginStaging _ _ _ _ _) inProgress, readImage,
        imageGeneration_readExtent, imageData_readExtent _ _ _ (by omega), openReport, genBytes_genOfBytes, hpl,
        withResponse, beginStaging, setSession_ports, ports, setSession, sessions]
      rfl
    · rw [if_pos hx, if_pos hi, answer_inProgress p tag _ _ _ inProgress, withResponse, ports]
      rfl
  · simp only [exec, execOpenCopyLoad, arbiterOf, hh]

end Sys2Proof.Machine

namespace Sys2Proof.Machine

open Sys2Proof

/-! ## STAGE and APPEND (R47, R48, R49) -/

theorem exec_stage {s : State} {p : Port} (tag : Byte) {body : List Byte} (h : CanServe s p) (hb : body.length ≤ 252) :
    exec (.stage p tag body) s = .next (writeReply p (serveStage p body (awaiting s p tag body))) :=
  congrArg Host.Outcome.next (takeRequest_accepted _ _ _ _ _ _ h.1 hb)

theorem exec_append {s : State} {p : Port} (tag : Byte) {body : List Byte} (h : CanServe s p) (hb : body.length ≤ 252) :
    exec (.append p tag body) s = .next (writeReply p (serveAppend p body (awaiting s p tag body))) :=
  congrArg Host.Outcome.next (takeRequest_accepted _ _ _ _ _ _ h.1 hb)

theorem stagedLength_of {u : State} {p : Port} {r : RecNo} {e : LayoutEntry} (hr : (u.sessions.get p).record = some r)
    (he : (slotOf u r).entry = some e) : stagedLength u p = e.length := by
  simp only [stagedLength, sessionOf, hr, he, Option.map_some, Option.getD_some]

/-- What STAGE's body spells: an offset and 1 to 248 bytes. -/
theorem stageBody_some {o : Byte} {data : List Byte} (h1 : 1 ≤ data.length) (h2 : data.length ≤ 248) :
    stageBody (o :: data) = some (o.toNat, data) := if_pos ⟨h1, h2⟩

/-- A body that STAGE refuses spells nothing, or an offset from the record's length on. -/
theorem stageBody_refused {body : List Byte} {n : Nat}
    (h : body.length < 2 ∨ 249 < body.length ∨ n ≤ (body.headD 0).toNat) {o : Nat} {data : List Byte}
    (hb : stageBody body = some (o, data)) : n ≤ o := by
  cases body with
  | nil => simp [stageBody] at hb
  | cons b bytes =>
    simp only [stageBody] at hb
    split at hb
    · rename_i hl
      obtain ⟨h1, h2⟩ := hl
      simp only [Config.maxLength] at h2
      simp only [Option.some.injEq, Prod.mk.injEq] at hb
      obtain ⟨rfl, -⟩ := hb
      simp only [List.length_cons, List.headD_cons] at h
      omega
    · contradiction

theorem appendBody_some {data : List Byte} (h1 : data ≠ []) (h2 : data.length ≤ 248) : appendBody data = some data :=
  if_pos ⟨List.length_pos_iff.mpr h1, h2⟩

theorem appendBody_none {data : List Byte} (h : data = [] ∨ 248 < data.length) : appendBody data = none := by
  refine if_neg fun ⟨h1, h2⟩ => ?_
  simp only [Config.maxLength] at h2
  rcases h with rfl | h
  · simp at h1
  · omega

theorem serveStage_stored {p : Port} {u : State} {body data : List Byte} {o : Nat} (hd : u.device = .ready)
    (hs : (u.sessions.get p).state = .staging) (hb : stageBody body = some (o, data)) (ho : o < stagedLength u p) :
    serveStage p body u = storeStaged p (stagedLength u p) o data u := by
  rw [serveStage, whenReady_ready hd, whenSession_of_eq hs]
  simp only [hb, if_pos ho]

theorem serveStage_range {p : Port} {u : State} {body : List Byte} (hd : u.device = .ready)
    (hs : (u.sessions.get p).state = .staging)
    (hb : ∀ o data, stageBody body = some (o, data) → stagedLength u p ≤ o) :
    serveStage p body u = respond p .range [natByte (u.sessions.get p).fill, 0] u := by
  rw [serveStage, whenReady_ready hd, whenSession_of_eq hs]
  cases h : stageBody body with
  | none => rfl
  | some x => exact if_neg (Nat.not_lt.mpr (hb _ _ h))

/-- Data stored from a position onward, up to the record's last byte (R47, R49). -/
theorem storeStaged_answered (s : State) (p : Port) (tag : Byte) (body : List Byte) (length o : Nat)
    (data : List Byte) :
    writeReply p (storeStaged p length o data (awaiting s p tag body)) =
      { answered s p tag body (if length < o + data.length then .overrun else .ok)
          [natByte (min (o + data.length) length), natByte (min data.length (length - o))] with
        sessions := s.sessions.set p { s.sessions.get p with
          buffer := storeAt (s.sessions.get p).buffer o (data.take (length - o))
          fill := min (o + data.length) length
          overrun := (s.sessions.get p).overrun || decide (length < o + data.length) } } := by
  simp only [storeStaged, List.length_take, decide_eq_true_eq, Nat.min_comm (length - o)]
  exact respond_awaiting p tag body _ _ s _ rfl

/-- A stored byte is the datum at its place, every other byte stays (R47). -/
theorem storeAt_get (b : Table 248 Byte) (o : Nat) (data : List Byte) (i : Fin 248) (h : o + data.length ≤ 248) :
    (storeAt b o data).get i = if o ≤ i.val ∧ i.val < o + data.length then data.getD (i.val - o) 0 else b.get i := by
  have hi := i.isLt
  have size := b.size
  simp only [storeAt, Table.get, Table.ofList, List.getElem_take, List.getElem_append, List.length_append,
    List.length_take, List.length_drop, List.getElem_drop, size, Nat.min_eq_left (show o ≤ 248 by omega)]
  rw [dif_pos (by omega)]
  split
  · split
    · rw [if_neg (by omega)]
    · rw [if_pos (by omega), List.getD_eq_getElem _ _ (by omega)]
  · rw [if_neg (by omega)]
    simp only [show o + data.length + (i.val - (o + data.length)) = i.val by omega]

/-- Settles O19: STAGE's checks and its store, the stored buffer byte by byte, and APPEND's. -/
theorem stageAndAppendStore : Obligations.StageAndAppendStore := by
  refine ⟨⟨fun s p tag h => ⟨fun body hl hs => ?_, fun r e hs hr he => ⟨fun body hl hb => ?_, fun o data h1 h2 ho => ?_⟩⟩,
    fun b o data i h => storeAt_get b o data i h⟩, fun s p tag body h hl => ⟨fun hs => ?_, fun hs hb => ?_,
    fun r e hs hr he h1 h2 _ => ?_⟩⟩
  · rw [exec_stage tag h hl, serveStage, whenReady_ready (u := awaiting s p tag body) h.2,
      whenSession_of_ne (u := awaiting s p tag body) hs, refuse_awaiting_self]
  · have length : stagedLength (awaiting s p tag body) p = e.length := stagedLength_of hr he
    rw [exec_stage tag h hl, serveStage_range (u := awaiting s p tag body) h.2 hs fun o data ho => ?_,
      awaiting_sessions, respond_awaiting_self]
    rw [length]
    exact stageBody_refused hb ho
  · have length : stagedLength (awaiting s p tag (o :: data)) p = e.length := stagedLength_of hr he
    have stored := serveStage_stored (u := awaiting s p tag (o :: data)) h.2 hs (stageBody_some h1 h2)
      (length.symm ▸ ho)
    rw [exec_stage tag h (by simp only [List.length_cons]; omega), stored, length, storeStaged_answered]
  · rw [exec_append tag h hl, serveAppend, whenReady_ready (u := awaiting s p tag body) h.2,
      whenSession_of_ne (u := awaiting s p tag body) hs, refuse_awaiting_self]
  · rw [exec_append tag h hl, serveAppend, whenReady_ready (u := awaiting s p tag body) h.2,
      whenSession_of_eq (u := awaiting s p tag body) hs, withBody_none (appendBody_none hb), refuse_awaiting_self]
  · have length : stagedLength (awaiting s p tag body) p = e.length := stagedLength_of hr he
    rw [exec_append tag h hl, serveAppend, whenReady_ready (u := awaiting s p tag body) h.2,
      whenSession_of_eq (u := awaiting s p tag body) hs, withBody_some (appendBody_some h1 h2), length,
      sessionOf_awaiting, storeStaged_answered]
    rfl

end Sys2Proof.Machine

namespace Sys2Proof.Machine

open Sys2Proof

/-! ## FETCH COMMIT RESULT and FETCH LOCK REPORT (R74, R96) -/

theorem exec_fetchCommitResult {s : State} {p : Port} (tag : Byte) {body : List Byte} (h : CanServe s p)
    (hb : body.length ≤ 252) :
    exec (.fetchCommitResult p tag body) s =
      .next (writeReply p (serveFetchCommitResult p body (awaiting s p tag body))) :=
  congrArg Host.Outcome.next (takeRequest_accepted _ _ _ _ _ _ h.1 hb)

theorem exec_fetchLockReport {s : State} {p : Port} (tag : Byte) {body : List Byte} (h : CanServe s p)
    (hb : body.length ≤ 252) :
    exec (.fetchLockReport p tag body) s =
      .next (writeReply p (serveFetchLockReport p body (awaiting s p tag body))) :=
  congrArg Host.Outcome.next (takeRequest_accepted _ _ _ _ _ _ h.1 hb)

/-- FETCH COMMIT RESULT without a body, by what the slot holds. -/
theorem serveFetchCommitResult_ready {p : Port} {u : State} (hd : u.device = .ready) :
    (∀ x, u.results.get p = some x → serveFetchCommitResult p [] u = respond p .ok (resultReport x) u) ∧
    (u.results.get p = none → serveFetchCommitResult p [] u = refuse p .none u) := by
  have empty : emptyBody [] = some () := rfl
  refine ⟨fun x hx => ?_, fun hx => ?_⟩
  all_goals
    rw [serveFetchCommitResult, whenReady_ready hd, withBody_some empty]
    simp only [hx]

/-- Settles O13: the slot filled, the slot empty, the report, and a body that neither request takes. -/
theorem reportsAreFetched : Obligations.ReportsAreFetched := by
  intro s p tag h
  have result := exec_fetchCommitResult tag (body := []) h (by simp)
  obtain ⟨filled, vacant⟩ := serveFetchCommitResult_ready (p := p) (u := awaiting s p tag []) h.2
  refine ⟨fun x hx => ?_, fun hx => ?_, ?_, fun body hl hb => ⟨?_, ?_⟩⟩
  · rw [result, filled x hx, respond_awaiting_self]
    rfl
  · rw [result, vacant hx, refuse_awaiting_self]
  · have empty : emptyBody [] = some () := rfl
    rw [exec_fetchLockReport tag h (by simp), serveFetchLockReport, whenReady_ready (u := awaiting s p tag []) h.2,
      withBody_some empty, respond_awaiting_self]
    rfl
  · rw [exec_fetchCommitResult tag h hl, serveFetchCommitResult, whenReady_ready (u := awaiting s p tag body) h.2,
      withBody_none (emptyBody_none body hb), refuse_awaiting_self]
  · rw [exec_fetchLockReport tag h hl, serveFetchLockReport, whenReady_ready (u := awaiting s p tag body) h.2,
      withBody_none (emptyBody_none body hb), refuse_awaiting_self]

/-! ## COMMIT (R58, R59) -/

theorem exec_commit {s : State} {p : Port} (tag : Byte) {body : List Byte} (h : CanServe s p) (hb : body.length ≤ 252) :
    exec (.commit p tag body) s = .next (writeReply p (serveCommit p body (awaiting s p tag body))) :=
  congrArg Host.Outcome.next (takeRequest_accepted _ _ _ _ _ _ h.1 hb)

theorem commitBody_none {body : List Byte} (h0 : body ≠ [0]) (h1 : body ≠ [1]) : commitBody body = none := by
  match body with
  | [] | _ :: _ :: _ => rfl
  | [c] =>
    have c0 : c ≠ 0 := fun hc => h0 (by rw [hc])
    have c1 : c ≠ 1 := fun hc => h1 (by rw [hc])
    simp only [commitBody, if_neg c0, if_neg c1]

theorem commitBody_some {body : List Byte} {cond : Condition}
    (h : body = [0] ∧ cond = .any ∨ body = [1] ∧ cond = .matching) : commitBody body = some cond := by
  rcases h with ⟨rfl, rfl⟩ | ⟨rfl, rfl⟩ <;> rfl

section Staged

variable {p : Port} {u : State} {body : List Byte} {cond : Condition} (hd : u.device = .ready)
  (hs : (u.sessions.get p).state = .staging) (hb : commitBody body = some cond)

include hd hs hb

theorem serveCommit_overrun (ho : (u.sessions.get p).overrun = true) : serveCommit p body u = refuse p .overrun u := by
  simp [serveCommit, sessionOf, hd, hs, hb, ho]

theorem serveCommit_power (ho : (u.sessions.get p).overrun = false) (hw : u.rc.warning = true) :
    serveCommit p body u = refuse p .power u := by
  simp [serveCommit, sessionOf, hd, hs, hb, ho, hw]

theorem serveCommit_restarting (ho : (u.sessions.get p).overrun = false) (hw : u.rc.warning = false)
    (hr : u.rc.restartPending = true) : serveCommit p body u = refuse p .restarting u := by
  simp [serveCommit, sessionOf, hd, hs, hb, ho, hw, hr]

theorem serveCommit_accepted (ho : (u.sessions.get p).overrun = false) (hw : u.rc.warning = false)
    (hr : u.rc.restartPending = false) : serveCommit p body u = acceptCommit p cond u := by
  simp [serveCommit, sessionOf, hd, hs, hb, ho, hw, hr]

end Staged

theorem acceptCommit_of_record {p : Port} {u : State} {r : RecNo} (cond : Condition)
    (h : (u.sessions.get p).record = some r) :
    acceptCommit p cond u = enqueue p (.record r cond (u.sessions.get p).baseGen) u := by
  simp only [acceptCommit, sessionOf, h]

/-- An entry that joins the queue is answered QUEUED (R58, R59). -/
theorem enqueue_answered (s : State) (p : Port) (tag : Byte) (body : List Byte) (w : Work) :
    writeReply p (enqueue p w (awaiting s p tag body)) =
      { answered s p tag body .queued [] with
        sessions := s.sessions.set p { s.sessions.get p with state := .queued }
        queue := s.queue ++ [⟨p, w⟩] } :=
  respond_awaiting p tag body _ _ s _ rfl

/-- Settles O20: the session, the body, then the checks in their order up to the queue. -/
theorem commitsAreQueued : Obligations.CommitsAreQueued := by
  intro s p tag body h hl
  have served := exec_commit tag h hl
  refine ⟨fun hs => ?_, fun hs h0 h1 => ?_, fun r cond hs hr hb => ?_⟩
  · rw [served, serveCommit, whenReady_ready (u := awaiting s p tag body) h.2,
      whenSession_of_ne (u := awaiting s p tag body) hs, refuse_awaiting_self]
  · rw [served, serveCommit, whenReady_ready (u := awaiting s p tag body) h.2,
      whenSession_of_eq (u := awaiting s p tag body) hs, withBody_none (commitBody_none h0 h1), refuse_awaiting_self]
  · have operand := commitBody_some hb
    refine ⟨fun ho => ?_, fun ho hw => ?_, fun ho hw hp => ?_, fun ho hw hp => ?_⟩
    · rw [served, serveCommit_overrun (u := awaiting s p tag body) h.2 hs operand ho, refuse_awaiting_self]
    · rw [served, serveCommit_power (u := awaiting s p tag body) h.2 hs operand ho hw, refuse_awaiting_self]
    · rw [served, serveCommit_restarting (u := awaiting s p tag body) h.2 hs operand ho hw hp, refuse_awaiting_self]
    · rw [served, serveCommit_accepted (u := awaiting s p tag body) h.2 hs operand ho hw hp,
        acceptCommit_of_record (u := awaiting s p tag body) cond hr, enqueue_answered]
      rfl

end Sys2Proof.Machine

namespace Sys2Proof.Machine

open Sys2Proof

/-! ## The start of an entry (R64, R66, R67) -/

/-- The gate of R64, closed. -/
theorem startAllowed_false {s : State}
    (h : s.engine.state ≠ .idle ∨ s.queue = [] ∨ s.rc.warning = true ∨ s.rc.restartPending = true ∨
      s.device = .mounting ∨ (s.device ≠ .ready ∧ ∃ e rest, s.queue = e :: rest ∧ e.work ≠ .layout .format)) :
    startAllowed s = false := by
  unfold startAllowed
  rcases h with h | h | h | h | h | ⟨hd, e, rest, hq, hw⟩
  · simp [h]
  · simp [h]
  · simp [h]
  · simp [h]
  · cases s.queue <;> simp [h]
  · simp [hd, hq, hw]

/-- Settles O32: each condition closes the gate, and no start is taken. -/
theorem engineGate : Obligations.EngineGate := by
  intro s h
  have closed := startAllowed_false h
  simp only [exec, execEngineStart, closed, Bool.false_eq_true, if_false]

/-- The head entry starts where the gate is open (R66). -/
theorem exec_engineStart {s : State} {e : Entry} {rest : List Entry} (hi : s.engine.state = .idle)
    (hw : s.rc.warning = false) (hr : s.rc.restartPending = false) (hd : s.device = .ready)
    (hq : s.queue = e :: rest) : exec .engineStart s = .next (startEntry e (setQueue rest s)) := by
  have allowed := startAllowed_of s e rest hi hw hr hq (.inl hd)
  simp only [exec, execEngineStart, allowed, if_true, hq]

/-! ### The checks of a RECORD entry (R67) -/

section StartChecks

variable {s : State} {p : Port} {r : RecNo} {cond : Condition} {base : Gen} {e : LayoutEntry}

theorem recordStartCheck_noRecord (he : (slotOf s r).entry = none) :
    recordStartCheck s p r cond base = some .noRecord := by
  simp only [recordStartCheck, he]

theorem recordStartCheck_noAccess (he : (slotOf s r).entry = some e) (hw : e.writeSet.get p = false) :
    recordStartCheck s p r cond base = some .noAccess := by
  simp [recordStartCheck, he, hw]

theorem recordStartCheck_notHolder (he : (slotOf s r).entry = some e) (hw : e.writeSet.get p = true)
    (hg : e.guarded = true) (hh : (lockOf s r).holder ≠ some p) :
    recordStartCheck s p r cond base = some .notHolder := by
  simp [recordStartCheck, he, hw, hg, hh]

theorem recordStartCheck_locked {q : Port} (he : (slotOf s r).entry = some e) (hw : e.writeSet.get p = true)
    (hg : e.guarded = false) (hh : (lockOf s r).holder = some q) (hq : q ≠ p) :
    recordStartCheck s p r cond base = some .locked := by
  simp [recordStartCheck, he, hw, hg, hh, hq]

/-- A port that may write, on a record whose lock lets it, is left with the condition to meet. -/
theorem recordStartCheck_condition (he : (slotOf s r).entry = some e) (hw : e.writeSet.get p = true)
    (hg : e.guarded = true → (lockOf s r).holder = some p)
    (hn : e.guarded = false → (lockOf s r).holder = none ∨ (lockOf s r).holder = some p) :
    recordStartCheck s p r cond base =
      if cond = .matching ∧ base ≠ (slotOf s r).content.generation then some .stale else none := by
  cases guarded : e.guarded with
  | true => simp [recordStartCheck, he, hw, guarded, hg guarded]
  | false => rcases hn guarded with hh | hh <;> simp [recordStartCheck, he, hw, guarded, hh]

end StartChecks

/-! ### The start of a RECORD entry (R66, R67, R68, R72) -/

/-- A RECORD entry as its checks find the part: the session PROGRAMMING, the engine in CHECK (R66). -/
def entryBegun (e : Entry) (s : State) : State :=
  { s with
    sessions := s.sessions.set e.port { s.sessions.get e.port with state := .programming }
    engine := { Engine.reset with state := .check, entry := some e } }

theorem startEntry_record (p : Port) (r : RecNo) (cond : Condition) (base : Gen) (s : State) :
    startEntry ⟨p, .record r cond base⟩ s =
      startRecord ⟨p, .record r cond base⟩ r cond base (entryBegun ⟨p, .record r cond base⟩ s) := rfl

/-- The checks look at nothing that the copying of the staged bytes writes. -/
theorem startRecord_failed {e : Entry} {r : RecNo} {cond : Condition} {base : Gen} {code : ResultCode} {s : State}
    (h : recordStartCheck s e.port r cond base = some code) :
    startRecord e r cond base s = failRecord e r code (takeStaged e.port r s) := by
  have taken : recordStartCheck (takeStaged e.port r s) e.port r cond base = some code := h
  simp only [startRecord, taken]

/-- An entry that fails a start check ends at once (R67, R72). -/
theorem startEntry_record_failed {s : State} {p : Port} {r : RecNo} {cond : Condition} {base : Gen}
    {code : ResultCode} (h : recordStartCheck s p r cond base = some code) :
    startEntry ⟨p, .record r cond base⟩ s = { s with
      sessions := s.sessions.set p Session.reset
      results := s.results.set p (some { record := some r, kind := .record, result := code
                                         generation := (slotOf s r).content.generation })
      flags := s.flags.set p { s.flags.get p with commitDone := true }
      engine := Engine.reset } := by
  have begun := startRecord_failed (e := ⟨p, .record r cond base⟩) (s := entryBegun ⟨p, .record r cond base⟩ s) h
  rw [startEntry_record, begun, failRecord_eq]
  simp only [takeStaged, entryBegun, setEngine, setSession, PerPort.set_set]
  rfl

theorem takeStaged_defined (p : Port) {r : RecNo} {e : LayoutEntry} {s : State} (he : (slotOf s r).entry = some e) :
    takeStaged p r s = { s with
      sessions := s.sessions.set p { s.sessions.get p with fill := 0, overrun := false, buffer := emptyBuffer }
      engine := { s.engine with
        buffer := .data (Table.ofList 248 0 ((s.sessions.get p).buffer.cells.take e.length)) } } := by
  simp only [takeStaged, he]
  rfl

/-- The checks passed, the engine asks for the erase of the header page of the target copy (R67, R68). -/
theorem startRecord_passed {e : Entry} {r : RecNo} {cond : Condition} {base : Gen} {le : LayoutEntry} {s : State}
    (h : recordStartCheck s e.port r cond base = none) (he : (slotOf s r).entry = some le) :
    startRecord e r cond base s = joinEngine (targetCopy (slotOf s r).content.current) { s with
      sessions := s.sessions.set e.port { s.sessions.get e.port with
        fill := 0, overrun := false, buffer := emptyBuffer }
      engine := { s.engine with
        state := .erase
        step := some ⟨.erase, 1, extentPages le.length⟩
        attempt := 1
        target := some (targetCopy (slotOf s r).content.current)
        newGen := successor (slotOf s r).content.generation
        buffer := .data (Table.ofList 248 0 ((s.sessions.get e.port).buffer.cells.take le.length))
        basePage := le.basePage
        length := le.length } } := by
  have passes : recordStartCheck (takeStaged e.port r s) e.port r cond base = none := h
  have entry : (slotOf (takeStaged e.port r s) r).entry = some le := he
  simp only [startRecord, passes, entry]
  rw [takeStaged_defined e.port he]
  rfl

/-- An entry that passes the start checks is in its first erase step (R66). -/
theorem startEntry_record_passed {s : State} {p : Port} {r : RecNo} {cond : Condition} {base : Gen} {e : LayoutEntry}
    (h : recordStartCheck s p r cond base = none) (he : (slotOf s r).entry = some e) :
    startEntry ⟨p, .record r cond base⟩ s = joinEngine (targetCopy (slotOf s r).content.current) { s with
      sessions := s.sessions.set p { s.sessions.get p with
        state := .programming, fill := 0, overrun := false, buffer := emptyBuffer }
      engine := recordEngine ⟨p, .record r cond base⟩ (slotOf s r) e
        (Table.ofList 248 0 ((s.sessions.get p).buffer.cells.take e.length)) } := by
  have begun := startRecord_passed (e := ⟨p, .record r cond base⟩) (s := entryBegun ⟨p, .record r cond base⟩ s) h he
  rw [startEntry_record, begun]
  simp only [entryBegun, PerPort.get_set_self, PerPort.set_set]
  rfl

/-- The target copy is the one that is not current, copy 0 where there is none (R12). -/
theorem targetCopy_eq {x : Option Plane} {c : Plane} (h : x = some .p0 ∧ c = .p1 ∨ x ≠ some .p0 ∧ c = .p0) :
    targetCopy x = c := by
  rcases h with ⟨rfl, rfl⟩ | ⟨hx, rfl⟩
  · rfl
  · match x with
    | none | some .p1 => rfl
    | some .p0 => exact absurd rfl hx

/-- Settles O33: the gate is open and the checks pass, so the entry starts. -/
theorem recordEntriesStart : Obligations.RecordEntriesStart := by
  intro s p r cond base rest e c hi hw hr hd hq he hwrite hg hn hc htarget
  have passed : recordStartCheck s p r cond base = none := by
    rw [recordStartCheck_condition he hwrite hg hn, if_neg fun ⟨hm, hb⟩ => hb (hc hm)]
  rw [exec_engineStart hi hw hr hd hq, startEntry_record_passed (s := setQueue rest s) passed he]
  simp only [slotOf, setQueue_dir] at htarget ⊢
  rw [targetCopy_eq htarget, recordEngine, targetCopy_eq htarget]
  rfl

/-- Settles O34: the gate is open, and the first check that fails names the code. -/
theorem recordStartsFail : Obligations.RecordStartsFail := by
  intro s p r cond base rest code hi hw hr hd hq h
  have failed : recordStartCheck s p r cond base = some code := by
    rcases h with ⟨he, rfl⟩ | ⟨e, he, ⟨hwrite, rfl⟩ | ⟨hwrite, h⟩⟩
    · exact recordStartCheck_noRecord he
    · exact recordStartCheck_noAccess he hwrite
    · rcases h with ⟨hg, hh, rfl⟩ | ⟨hg, ⟨q, hh, hne⟩, rfl⟩ | ⟨hg, hn, hm, hb, rfl⟩
      · exact recordStartCheck_notHolder he hwrite hg hh
      · exact recordStartCheck_locked he hwrite hg hh hne
      · rw [recordStartCheck_condition he hwrite hg hn]
        exact if_pos ⟨hm, hb⟩
  rw [exec_engineStart hi hw hr hd hq, startEntry_record_failed (s := setQueue rest s) failed]
  rfl

end Sys2Proof.Machine

namespace Sys2Proof.Machine

open Sys2Proof

/-! ## The failure of an entry at the end of a page step (R70, R72, R138) -/

section LeftPage

variable {s u : State} (left : Only { array := true, arbiters := true, reads := true } s u)

include left

/-- A RECORD entry that ends where its step has left the page, in the words of the state before. -/
theorem failRecord_left (e : Entry) (r : RecNo) (code : ResultCode) :
    failRecord e r code u = { u with
      engine := Engine.reset
      results := if s.engine.detached then s.results else s.results.set e.port
        (some { record := some r, kind := .record, result := code, generation := (slotOf s r).content.generation })
      sessions := if s.engine.detached then s.sessions else s.sessions.set e.port Session.reset
      flags := if s.engine.detached then s.flags
        else s.flags.set e.port { s.flags.get e.port with commitDone := true } } := by
  have slot : slotOf u r = slotOf s r := by simp only [slotOf, left.dir rfl]
  rw [failRecord_eq, slot, left.engine rfl, left.results rfl, left.sessions rfl, left.flags rfl]

theorem failLayout_left (p : Port) (op : LayoutOp) (code : ResultCode) :
    failLayout ⟨p, .layout op⟩ code u = { u with
      engine := Engine.reset
      dir := match op with
        | .delete r => { s.dir with slots := s.dir.slots.set r { slotOf s r with deletePending := false } }
        | _ => s.dir
      results := if s.engine.detached then s.results else s.results.set p
        (some { record := Work.record? (.layout op), kind := Work.kind (.layout op), result := code
                generation := layoutGeneration s })
      sessions := if s.engine.detached then s.sessions else s.sessions.set p Session.reset
      flags := if s.engine.detached then s.flags
        else s.flags.set p { s.flags.get p with commitDone := true } } := by
  have slot : ∀ r, slotOf u r = slotOf s r := fun r => by simp only [slotOf, left.dir rfl]
  have generation : layoutGeneration u = layoutGeneration s := by simp only [layoutGeneration, left.dir rfl]
  rw [failLayout_eq, generation, left.engine rfl, left.results rfl, left.sessions rfl, left.flags rfl]
  cases op <;> simp only [slot, left.dir rfl]

end LeftPage

/-! ### The third failure (R70, R138) -/

section Exhausted

variable {e : Entry} {st : EngineStep} {r : RecNo} {c : Condition} {g : Gen} (u : State)

/-- Past its header erase and short of its header program a record entry first invalidates its header page. -/
theorem stepExhausted_past_header (hw : e.work = .record r c g)
    (h : st.phase = .erase ∧ st.k ≠ 1 ∨ st.phase = .program ∧ st.k ≠ st.m) :
    stepExhausted e st u = askStep { phase := .invalidate, k := 1, m := st.m } 1 u := by
  rcases h with ⟨hp, hk⟩ | ⟨hp, hk⟩ <;> simp only [stepExhausted, hw, hp, if_neg hk]

theorem stepExhausted_at_header (hw : e.work = .record r c g)
    (h : st.phase = .erase ∧ st.k = 1 ∨ st.phase = .program ∧ st.k = st.m) :
    stepExhausted e st u = failRecord e r .fault u := by
  rcases h with ⟨hp, hk⟩ | ⟨hp, hk⟩ <;> simp only [stepExhausted, hw, hp, if_pos hk, failFault]

theorem stepExhausted_layout {op : LayoutOp} (hw : e.work = .layout op) :
    stepExhausted e st u = failLayout e .fault u := by
  simp only [stepExhausted, hw, failFault]

end Exhausted

theorem stepFailed_third (e : Entry) {s : State} (st : EngineStep) (x : PageBytes) (h : s.engine.attempt = 3) :
    stepFailed e st (stepLeft s st x) = stepExhausted e st (stepLeft s st x) := by
  rw [stepFailed, leavePage_engine, h]
  rfl

/-- An attempt that fails, in either phase (R69). -/
theorem exec_attempt_failed {s : State} {i : Instr} {mask : PageBytes} {e : Entry} {st : EngineStep} {x : PageBytes}
    (he : s.engine.entry = some e) (hst : s.engine.step = some st) (hw : attemptUnderWay s st = true)
    (hp : stepPage s st < Config.planePages)
    (h : i = .eraseAttemptDone mask ∧ phaseState st.phase = .erase ∧ x = eraseAttempt (stepOld s st) mask ∧
        x ≠ erasedPage ∨
      i = .programAttemptDone mask ∧ st.phase = .program ∧
        x = programAttempt (stepOld s st) (stepContent s st) mask ∧ x ≠ stepContent s st) :
    exec i s = .next (stepFailed e st (stepLeft s st x)) := by
  rcases h with ⟨rfl, hph, rfl, hx⟩ | ⟨rfl, hph, rfl, hx⟩
  · rw [exec_eraseAttemptDone mask he hst hw hph, if_pos hp, if_neg hx]
  · rw [exec_programAttemptDone mask he hst hw hph, if_pos hp, if_neg hx]

/-- Settles O40: the attempt fails for the third time, and the entry's kind and step say how it ends. -/
theorem thirdFailuresEnd : Obligations.ThirdFailuresEnd := by
  rintro s i mask e st pl page x he hst hstate rfl rfl hp hold ha h u
  have failed : exec i s = .next (stepExhausted e st u) := by
    rw [exec_attempt_failed he hst (attemptUnderWay_of hold hstate) hp h, stepFailed_third e st x ha]
    rfl
  have left : Only { array := true, arbiters := true, reads := true } s u := leavePage_only _ _ x s
  refine ⟨fun r c g hw hk => ?_, fun r c g hw hk => ?_, fun op hw => ?_⟩
  · rw [failed, stepExhausted_past_header u hw hk]
  · rw [failed, stepExhausted_at_header u hw hk, failRecord_left left]
  · obtain ⟨p, w⟩ := e
    obtain rfl : w = .layout op := hw
    rw [failed, stepExhausted_layout u rfl]
    exact congrArg Host.Outcome.next (failLayout_left left p op .fault)

/-! ### The invalidation step (R29, R70) -/

theorem exec_invalidationStep {s : State} (cleared : PageBytes) {e : Entry} {st : EngineStep}
    (he : s.engine.entry = some e) (hst : s.engine.step = some st) (hw : attemptUnderWay s st = true)
    (hph : st.phase = .invalidate) :
    exec (.invalidationStep cleared) s =
      if stepPage s st < Config.planePages then
        .next (failFault e (stepLeft s st (programAttempt (stepOld s st) invalidationContent cleared)))
      else .fault .pageOutsideArray := by
  simp only [exec, execInvalidationStep, he, hst, hw, hph, decide_true, Bool.and_self, if_true, stepOld]

/-- A page whose bytes past byte 0 are erased is a blank header, or one that no stored image has (R25, R29). -/
theorem classifyRecord_byte0 (r : RecNo) (len : Nat) (c : Plane) {x : PageBytes} (rest : List Byte)
    (h : ∀ i : Fin 32, i ≠ 0 → x.get i = 0xFF) :
    classifyRecord r len c (x.cells ++ rest) = if x.get 0 = 0xFF then .noImage else .invalid := by
  have header : ∀ i : Fin 32, (x.cells ++ rest).getD i.val 0xFF = x.get i := fun i => by
    have hi : i.val < x.cells.length := x.size.symm ▸ i.isLt
    rw [List.getD_append _ _ _ _ hi, List.getD_eq_getElem _ _ hi]
    rfl
  split
  · rename_i h0
    refine (classifyRecord_noImage_iff _ _ _ _).mpr fun i hi => ?_
    rw [header ⟨i, by omega⟩]
    by_cases hz : i = 0
    · subst hz
      exact h0
    · exact h _ fun hf => hz (congrArg Fin.val hf)
  · rename_i h0
    cases hc : classifyRecord r len c (x.cells ++ rest) with
    | noImage =>
      have blank := (classifyRecord_noImage_iff _ _ _ _).mp hc 0 (by decide)
      exact absurd ((header 0).symm.trans blank) h0
    | valid g =>
      obtain ⟨-, h1, -⟩ := (classifyRecord_valid_iff _ _ _ _ _).mp hc
      exact absurd ((h 1 (by decide)).symm.trans ((header 1).symm.trans h1)) (recByte_ne_blank r)
    | invalid => rfl

/-- Settles O41: the step ends, the entry fails, and of the header page byte 0 alone has changed. -/
theorem invalidationEndsTheEntry : Obligations.InvalidationEndsTheEntry := by
  rintro s cleared p r cond base st c page x he hst hstate hph htarget rfl hold rfl
  have plane : stepPlane s st = c := by simp only [stepPlane, hph, htarget, Option.getD_some]
  have header : stepPage s st = s.engine.basePage := by simp only [stepPage, hph, areaBase_record he]
  have under : attemptUnderWay s st = true := attemptUnderWay_of (by rw [plane, hold]) (by rw [hstate, hph]; rfl)
  have ends := exec_invalidationStep cleared he hst under hph
  rw [stepOld, stepLeft, plane, header] at ends
  have others : ∀ i : Fin 32, i ≠ 0 →
      (programAttempt (readPage s.array c s.engine.basePage) invalidationContent cleared).get i =
        (readPage s.array c s.engine.basePage).get i := fun i hi =>
    programAttempt_of_ones _ _ cleared (invalidationContent_get hi)
  refine ⟨fun hp => ?_, fun hp => ?_, others, fun hblank len rest => ?_⟩
  · rw [ends]
    exact if_neg (Nat.not_lt.mpr hp)
  · have inArray : s.engine.basePage < Config.planePages := hp
    rw [ends, if_pos inArray]
    exact congrArg Host.Outcome.next (failRecord_left (leavePage_only _ _ _ s) ⟨p, .record r cond base⟩ r .fault)
  · exact classifyRecord_byte0 r len c rest fun i hi =>
      (others i hi).trans (by rw [hblank, erasedPage_get])

end Sys2Proof.Machine

namespace Sys2Proof.Machine

open Sys2Proof

/-! ## The move of the waiting reads at a completion (R36) -/

/-- An effect made on each port for itself: what is seen of a port afterwards is what its own turn made of it. -/
theorem forPorts_view {β : Type} (view : State → Port → β) (f : Port → State → State) (own : Port → β → β)
    (h : ∀ p s q, view (f p s) q = if q = p then own p (view s p) else view s q) (s : State) (q : Port) :
    view (forPorts f s) q = own q (view s q) := by
  cases q <;> simp [forPorts, h]

theorem plane_ne_iff (pl c : Plane) : pl ≠ c ↔ pl = c.other := by
  cases pl <;> cases c <;> decide

/-- A port's waiting read of a record stands at the plane that a completion leaves (R36). -/
def MovesTo (r : RecNo) (c : Plane) (s : State) (q : Port) (rd : Read) : Prop :=
  s.reads.get q = some rd ∧ rd.record = r ∧ rd.phase = .waiting ∧ rd.plane ≠ c

/-- A port's read, and the planes among whose waiting reads it is. -/
def readView (s : State) (q : Port) : Option Read × (Plane → Bool) :=
  (s.reads.get q, fun pl => (s.arbiters.get pl).waiting.get q)

/-- What the move makes of a port's read. -/
def movedRead (r : RecNo) (c : Plane) : Option Read × (Plane → Bool) → Option Read × (Plane → Bool)
  | (some rd, w) =>
    if rd.record = r ∧ rd.phase = .waiting ∧ rd.plane ≠ c then
      (some { rd with plane := c }, fun pl => decide (pl = c))
    else (some rd, w)
  | (none, w) => (none, w)

section MoveRead

variable {r : RecNo} {c : Plane} {s : State} {p : Port}

theorem moveRead_of_moves {rd : Read} (h : MovesTo r c s p rd) :
    moveRead r c p s = { s with
      reads := s.reads.set p (some { rd with plane := c })
      arbiters := (s.arbiters.set c.other
        { s.arbiters.get c.other with waiting := (s.arbiters.get c.other).waiting.set p false }).set c
        { s.arbiters.get c with waiting := (s.arbiters.get c).waiting.set p true } } := by
  obtain ⟨hrd, hr, hw, hc⟩ := h
  have hpl : rd.plane = c.other := (plane_ne_iff _ _).mp hc
  have stay : (s.arbiters.set c.other
      { s.arbiters.get c.other with waiting := (s.arbiters.get c.other).waiting.set p false }).get c =
      s.arbiters.get c := PerPlane.get_set_ne _ _ _ _ ((plane_ne_iff _ _).mpr (by cases c <;> rfl))
  have moves : rd.record = r ∧ rd.phase = .waiting ∧ c.other ≠ c := ⟨hr, hw, hpl ▸ hc⟩
  simp only [moveRead, hrd, arbiterOf, hpl, setArbiter_arbiters, stay, if_pos moves]
  rfl

/-- A read that moves is then among the waiting reads of the new plane alone. -/
theorem moveRead_waiting {rd : Read} (h : MovesTo r c s p rd) (pl : Plane) :
    ((moveRead r c p s).arbiters.get pl).waiting = (s.arbiters.get pl).waiting.set p (decide (pl = c)) := by
  rw [moveRead_of_moves h]
  by_cases hpl : pl = c
  · subst hpl
    simp
  · obtain rfl := (plane_ne_iff _ _).mp hpl
    simp [hpl]

theorem moveRead_of_stays (h : ¬∃ rd, MovesTo r c s p rd) : moveRead r c p s = s := by
  simp only [moveRead]
  split
  · rename_i rd hrd
    exact if_neg fun hm => h ⟨rd, hrd, hm⟩
  · rfl

theorem movedRead_of_moves {rd : Read} (h : MovesTo r c s p rd) :
    movedRead r c (readView s p) = (some { rd with plane := c }, fun pl => decide (pl = c)) := by
  obtain ⟨hrd, hm⟩ := h
  simp only [readView, hrd, movedRead, if_pos hm]

theorem movedRead_of_stays (h : ¬∃ rd, MovesTo r c s p rd) : movedRead r c (readView s p) = readView s p := by
  simp only [readView]
  cases hrd : s.reads.get p with
  | none => rfl
  | some rd => exact if_neg fun hm => h ⟨rd, hrd, hm⟩

theorem readView_moveRead (q : Port) :
    readView (moveRead r c p s) q = if q = p then movedRead r c (readView s p) else readView s q := by
  by_cases h : ∃ rd, MovesTo r c s p rd
  · obtain ⟨rd, h⟩ := h
    have reads : (moveRead r c p s).reads = s.reads.set p (some { rd with plane := c }) := by rw [moveRead_of_moves h]
    rw [movedRead_of_moves h]
    by_cases hq : q = p
    · subst hq
      simp [readView, moveRead_waiting h, reads]
    · simp [readView, moveRead_waiting h, reads, hq]
  · rw [moveRead_of_stays h, movedRead_of_stays h]
    split
    · subst_vars
      rfl
    · rfl

/-- The move changes nothing of an arbiter but its waiting reads. -/
theorem moveRead_arbiter (pl : Plane) :
    (moveRead r c p s).arbiters.get pl =
      { s.arbiters.get pl with waiting := ((moveRead r c p s).arbiters.get pl).waiting } := by
  by_cases h : ∃ rd, MovesTo r c s p rd
  · obtain ⟨rd, h⟩ := h
    rw [moveRead_of_moves h]
    by_cases hpl : pl = c
    · subst hpl
      simp
    · obtain rfl := (plane_ne_iff _ _).mp hpl
      simp [hpl]
  · rw [moveRead_of_stays h]

end MoveRead

/-- What a completion makes of the reads and arbiters of `u` (R36): the reads that move leave the other plane and wait at
the new one, or the first of them is granted it where it is free; the rest stays. -/
def ReadsMove (r : RecNo) (c : Plane) (u t : State) : Prop :=
  (∀ q, (¬∃ rd, MovesTo r c u q rd) → t.reads.get q = u.reads.get q) ∧
  t.arbiters.get c.other = { u.arbiters.get c.other with waiting := (t.arbiters.get c.other).waiting } ∧
  (∀ q, (t.arbiters.get c.other).waiting.get q = true ↔
    (u.arbiters.get c.other).waiting.get q = true ∧ ¬∃ rd, MovesTo r c u q rd) ∧
  ((¬∃ q rd, MovesTo r c u q rd) → t.arbiters.get c = u.arbiters.get c) ∧
  ((u.arbiters.get c).holder ≠ .none →
    (∀ q rd, MovesTo r c u q rd → t.reads.get q = some { rd with plane := c }) ∧
    t.arbiters.get c = { u.arbiters.get c with waiting := (t.arbiters.get c).waiting } ∧
    ∀ q, (t.arbiters.get c).waiting.get q = true ↔
      (u.arbiters.get c).waiting.get q = true ∨ ∃ rd, MovesTo r c u q rd) ∧
  ∀ w rd0, (u.arbiters.get c).holder = .none → MovesTo r c u w rd0 →
    (∀ q rd, MovesTo r c u q rd → q ≠ w →
      rotationRank (u.arbiters.get c).pointer w < rotationRank (u.arbiters.get c).pointer q) →
    t.reads.get w = some { rd0 with plane := c, phase := .reading } ∧
    (∀ q rd, MovesTo r c u q rd → q ≠ w → t.reads.get q = some { rd with plane := c }) ∧
    t.arbiters.get c = { u.arbiters.get c with
      holder := .read w, pointer := w, waiting := (t.arbiters.get c).waiting } ∧
    ∀ q, (t.arbiters.get c).waiting.get q = true ↔ q ≠ w ∧ ∃ rd, MovesTo r c u q rd

/-- The move speaks of reads and arbiters alone. -/
theorem ReadsMove.congr {r : RecNo} {c : Plane} {u u' t t' : State} (h : ReadsMove r c u t) (hr : u'.reads = u.reads)
    (ha : u'.arbiters = u.arbiters) (tr : t'.reads = t.reads) (ta : t'.arbiters = t.arbiters) : ReadsMove r c u' t' := by
  simp only [ReadsMove, MovesTo, hr, ha, tr, ta] at h ⊢
  exact h

/-! ### The four ports' moves -/

/-- The state in which every read that moves has moved, and the plane is not yet granted. -/
abbrev readsMoved (r : RecNo) (c : Plane) (u : State) : State := forPorts (moveRead r c) u

section Moved

variable {r : RecNo} {c : Plane} {u : State}

theorem readView_readsMoved (q : Port) : readView (readsMoved r c u) q = movedRead r c (readView u q) :=
  forPorts_view readView (moveRead r c) (fun _ => movedRead r c) (fun _ _ q => readView_moveRead q) u q

theorem readsMoved_of_moves {q : Port} {rd : Read} (h : MovesTo r c u q rd) :
    (readsMoved r c u).reads.get q = some { rd with plane := c } ∧
      ∀ pl, ((readsMoved r c u).arbiters.get pl).waiting.get q = decide (pl = c) := by
  have view := readView_readsMoved (r := r) (c := c) (u := u) q
  rw [movedRead_of_moves h] at view
  obtain ⟨reads, waiting⟩ := Prod.mk.inj view
  exact ⟨reads, congrFun waiting⟩

theorem readsMoved_of_stays {q : Port} (h : ¬∃ rd, MovesTo r c u q rd) :
    (readsMoved r c u).reads.get q = u.reads.get q ∧
      ∀ pl, ((readsMoved r c u).arbiters.get pl).waiting.get q = (u.arbiters.get pl).waiting.get q := by
  have view := readView_readsMoved (r := r) (c := c) (u := u) q
  rw [movedRead_of_stays h] at view
  obtain ⟨reads, waiting⟩ := Prod.mk.inj view
  exact ⟨reads, congrFun waiting⟩

theorem readsMoved_arbiter (pl : Plane) :
    (readsMoved r c u).arbiters.get pl =
      { u.arbiters.get pl with waiting := ((readsMoved r c u).arbiters.get pl).waiting } := by
  refine forPorts_induct
    (fun v => v.arbiters.get pl = { u.arbiters.get pl with waiting := (v.arbiters.get pl).waiting }) _ (fun p v hv => ?_)
    u rfl
  rw [moveRead_arbiter pl, hv]

theorem readsMoved_waiting (pl : Plane) (q : Port) :
    ((readsMoved r c u).arbiters.get pl).waiting.get q = true ↔
      (pl = c ∧ ∃ rd, MovesTo r c u q rd) ∨ ((u.arbiters.get pl).waiting.get q = true ∧ ¬∃ rd, MovesTo r c u q rd) := by
  by_cases h : ∃ rd, MovesTo r c u q rd
  · obtain ⟨rd, h⟩ := h
    have moves : ∃ rd, MovesTo r c u q rd := ⟨rd, h⟩
    simp [(readsMoved_of_moves h).2, moves]
  · simp [(readsMoved_of_stays h).2, h]

end Moved

/-! ### The grant that may follow (R34, R36) -/

/-- The rotation finds a member of the set, or the set is empty. -/
theorem firstAfter_cases (p : Port) (x : PortSet) :
    (∃ q, firstAfter p x = some q ∧ x.get q = true) ∨ firstAfter p x = none ∧ x = PortSet.empty := by
  simp only [firstAfter]
  repeat' split
  · exact .inl ⟨_, rfl, ‹_›⟩
  · exact .inl ⟨_, rfl, ‹_›⟩
  · exact .inl ⟨_, rfl, ‹_›⟩
  · exact .inl ⟨_, rfl, ‹_›⟩
  · rename_i h1 h2 h3 h4
    refine .inr ⟨rfl, PerPort.ext_get fun q => ?_⟩
    rw [PortSet.empty, PerPort.get_all, ← Bool.not_eq_true]
    rcases port_in_rotation p q with rfl | rfl | rfl | rfl
    · exact h1
    · exact h2
    · exact h3
    · exact h4

theorem isEmpty_of_mem {p : Port} {x : PortSet} (h : x.get p = true) : x.isEmpty = false := by
  cases p <;> simp only [PerPort.get] at h <;> simp [PortSet.isEmpty, h]

/-- A plane that no one holds after a tenure has no read waiting (R34). -/
theorem endTenure_free {pl : Plane} {s : State} (h : ((endTenure pl s).arbiters.get pl).holder = .none) :
    ((endTenure pl s).arbiters.get pl).waiting = PortSet.empty := by
  rcases firstAfter_cases (s.arbiters.get pl).pointer (s.arbiters.get pl).waiting with ⟨p, hf, -⟩ | ⟨hf, empty⟩
  · rw [endTenure_of_read hf] at h
    simp [grantRead, setRead, setArbiter] at h
  · rw [endTenure_of_none hf] at h ⊢
    split
    · rename_i he
      simp [he] at h
    · simpa using empty

section Granted

variable {r : RecNo} {c : Plane} {u : State}
  (free : (u.arbiters.get c).holder = .none → (u.arbiters.get c).waiting = PortSet.empty)

theorem moveReads_eq (r : RecNo) (c : Plane) (u : State) :
    moveReads r c u =
      if (u.arbiters.get c).holder = .none ∧ ((readsMoved r c u).arbiters.get c).waiting.isEmpty = false then
        endTenure c (readsMoved r c u)
      else readsMoved r c u := by
  have holder : ((readsMoved r c u).arbiters.get c).holder = (u.arbiters.get c).holder := by rw [readsMoved_arbiter]
  rw [← holder]
  rfl

/-- Where the plane is held nothing is granted. -/
theorem moveReads_of_held (h : (u.arbiters.get c).holder ≠ .none) : moveReads r c u = readsMoved r c u := by
  rw [moveReads_eq, if_neg fun hm => h hm.1]

/-- At a plane that is held, the reads that move wait. -/
theorem moveReads_held (h : (u.arbiters.get c).holder ≠ .none) :
    (∀ q rd, MovesTo r c u q rd → (moveReads r c u).reads.get q = some { rd with plane := c }) ∧
    (moveReads r c u).arbiters.get c =
      { u.arbiters.get c with waiting := ((moveReads r c u).arbiters.get c).waiting } ∧
    ∀ q, ((moveReads r c u).arbiters.get c).waiting.get q = true ↔
      (u.arbiters.get c).waiting.get q = true ∨ ∃ rd, MovesTo r c u q rd := by
  rw [moveReads_of_held h]
  refine ⟨fun q rd hm => (readsMoved_of_moves hm).1, readsMoved_arbiter c, fun q => ?_⟩
  rw [readsMoved_waiting]
  tauto

/-- The grant to a read that has moved. -/
theorem grantRead_moved {w : Port} {rd : Read} (h : MovesTo r c u w rd) :
    grantRead c w (readsMoved r c u) = { readsMoved r c u with
      arbiters := (readsMoved r c u).arbiters.set c { (readsMoved r c u).arbiters.get c with
        holder := .read w, pointer := w, waiting := ((readsMoved r c u).arbiters.get c).waiting.set w false }
      reads := (readsMoved r c u).reads.set w (some { rd with plane := c, phase := .reading }) } :=
  grantRead_eq c (readsMoved_of_moves h).1

include free

/-- Of a free plane's waiting reads, all have just moved there. -/
theorem readsMoved_waiting_of_free (h : (u.arbiters.get c).holder = .none) (q : Port) :
    ((readsMoved r c u).arbiters.get c).waiting.get q = true ↔ ∃ rd, MovesTo r c u q rd := by
  rw [readsMoved_waiting, free h, PortSet.empty, PerPort.get_all]
  simp

/-- The reads that moved to a free plane are granted by the rotation, and where none did nothing is. -/
theorem moveReads_cases :
    moveReads r c u = readsMoved r c u ∧ ((u.arbiters.get c).holder = .none → ¬∃ q rd, MovesTo r c u q rd) ∨
    ∃ w rd, (u.arbiters.get c).holder = .none ∧ MovesTo r c u w rd ∧
      firstAfter (u.arbiters.get c).pointer ((readsMoved r c u).arbiters.get c).waiting = some w ∧
      moveReads r c u = grantRead c w (readsMoved r c u) := by
  have pointer : ((readsMoved r c u).arbiters.get c).pointer = (u.arbiters.get c).pointer := by rw [readsMoved_arbiter]
  by_cases hh : (u.arbiters.get c).holder = .none
  · have members := readsMoved_waiting_of_free (r := r) free hh
    rcases firstAfter_cases (u.arbiters.get c).pointer ((readsMoved r c u).arbiters.get c).waiting with
      ⟨w, hf, hw⟩ | ⟨-, empty⟩
    · obtain ⟨rd, hm⟩ := (members w).mp hw
      refine .inr ⟨w, rd, hh, hm, hf, ?_⟩
      rw [moveReads_eq, if_pos ⟨hh, isEmpty_of_mem hw⟩]
      exact endTenure_of_read (by rw [pointer, hf])
    · refine .inl ⟨?_, fun _ ⟨q, hm⟩ => ?_⟩
      · rw [moveReads_eq, empty, if_neg (by simp [PortSet.isEmpty, PortSet.empty, PerPort.all])]
      · exact absurd ((members q).mpr hm) (by simp [empty, PortSet.empty])
  · exact .inl ⟨moveReads_of_held hh, fun h => absurd h hh⟩

/-- Every read that does not move stays as it is. -/
theorem moveReads_stays {q : Port} (h : ¬∃ rd, MovesTo r c u q rd) :
    (moveReads r c u).reads.get q = u.reads.get q := by
  rcases moveReads_cases (r := r) free with ⟨he, -⟩ | ⟨w, rd, -, hm, -, he⟩
  · rw [he, (readsMoved_of_stays h).1]
  · have hq : q ≠ w := fun hq => h ⟨rd, hq ▸ hm⟩
    rw [he, grantRead_moved hm, PerPort.get_set_ne _ _ _ _ hq, (readsMoved_of_stays h).1]

/-- The other plane's arbiter loses the reads that move, and keeps the rest. -/
theorem moveReads_other :
    (moveReads r c u).arbiters.get c.other =
      { u.arbiters.get c.other with waiting := ((moveReads r c u).arbiters.get c.other).waiting } ∧
    ∀ q, ((moveReads r c u).arbiters.get c.other).waiting.get q = true ↔
      (u.arbiters.get c.other).waiting.get q = true ∧ ¬∃ rd, MovesTo r c u q rd := by
  have other : c.other ≠ c := (plane_ne_iff _ _).mpr rfl
  have moved : (moveReads r c u).arbiters.get c.other = (readsMoved r c u).arbiters.get c.other := by
    rcases moveReads_cases (r := r) free with ⟨he, -⟩ | ⟨w, rd, -, hm, -, he⟩
    · rw [he]
    · rw [he, grantRead_moved hm, PerPlane.get_set_ne _ _ _ _ other]
  refine ⟨by rw [moved, ← readsMoved_arbiter], fun q => ?_⟩
  rw [moved, readsMoved_waiting]
  simp [other]

/-- Where no read moves, the plane's arbiter stays. -/
theorem moveReads_nothing (h : ¬∃ q rd, MovesTo r c u q rd) :
    (moveReads r c u).arbiters.get c = u.arbiters.get c := by
  rcases moveReads_cases (r := r) free with ⟨he, -⟩ | ⟨w, rd, -, hm, -, -⟩
  · have waiting : ((readsMoved r c u).arbiters.get c).waiting = (u.arbiters.get c).waiting :=
      PerPort.ext_get fun q => (readsMoved_of_stays fun hq => h ⟨q, hq⟩).2 c
    rw [he, readsMoved_arbiter, waiting]
  · exact absurd ⟨w, rd, hm⟩ h

/-- At a plane that is free, the read that is first in the rotation is granted it and the others wait. -/
theorem moveReads_granted {w : Port} {rd0 : Read} (h : (u.arbiters.get c).holder = .none) (hw : MovesTo r c u w rd0)
    (least : ∀ q rd, MovesTo r c u q rd → q ≠ w →
      rotationRank (u.arbiters.get c).pointer w < rotationRank (u.arbiters.get c).pointer q) :
    (moveReads r c u).reads.get w = some { rd0 with plane := c, phase := .reading } ∧
    (∀ q rd, MovesTo r c u q rd → q ≠ w → (moveReads r c u).reads.get q = some { rd with plane := c }) ∧
    (moveReads r c u).arbiters.get c = { u.arbiters.get c with
      holder := .read w, pointer := w, waiting := ((moveReads r c u).arbiters.get c).waiting } ∧
    ∀ q, ((moveReads r c u).arbiters.get c).waiting.get q = true ↔ q ≠ w ∧ ∃ rd, MovesTo r c u q rd := by
  have members := readsMoved_waiting_of_free (r := r) free h
  have first := firstAfter_of_least ((members w).mpr ⟨rd0, hw⟩) fun q hq hne =>
    have ⟨rd, hm⟩ := (members q).mp hq
    least q rd hm hne
  have granted : moveReads r c u = grantRead c w (readsMoved r c u) := by
    rcases moveReads_cases (r := r) free with ⟨-, none⟩ | ⟨w', rd, -, -, hf, he⟩
    · exact absurd ⟨w, rd0, hw⟩ (none h)
    · obtain rfl := Option.some.inj (first.symm.trans hf)
      exact he
  rw [granted, grantRead_moved hw]
  refine ⟨by simp, fun q rd hm hne => ?_, ?_, fun q => ?_⟩
  · simp only [PerPort.get_set_ne _ _ _ _ hne, (readsMoved_of_moves hm).1]
  · simp only [PerPlane.get_set_self]
    rw [readsMoved_arbiter]
  · by_cases hq : q = w
    · simp [hq]
    · simp [hq, members]

/-- The move, whole: what becomes of every read and of both arbiters. -/
theorem moveReads_move (r : RecNo) : ReadsMove r c u (moveReads r c u) :=
  ⟨fun _ => moveReads_stays free, (moveReads_other free).1, (moveReads_other free).2, moveReads_nothing free,
    moveReads_held, fun _ _ => moveReads_granted free⟩

end Granted

end Sys2Proof.Machine

namespace Sys2Proof.Machine

open Sys2Proof

/-! ## The posting of a completed commit (R116) -/

/-- What a posting makes of a port's queue and flags. -/
def posting (n : Notice) (x : List Notice × Flags) : List Notice × Flags :=
  if ∃ m ∈ x.1, m.record = n.record then
    (x.1.map fun m => if m.record = n.record then n else m, { x.2 with noticePending := true })
  else if x.1.length < 8 then (x.1 ++ [n], { x.2 with noticePending := true })
  else (x.1, { x.2 with noticeOverflow := true })

theorem postNotice_eq (n : Notice) (p : Port) (s : State) :
    postNotice n p s = { s with
      notices := s.notices.set p (posting n (s.notices.get p, s.flags.get p)).1
      flags := s.flags.set p (posting n (s.notices.get p, s.flags.get p)).2 } := by
  simp only [postNotice, posting, List.any_eq_true, decide_eq_true_eq]
  split
  · rename_i hn
    obtain ⟨m, hm, -⟩ := hn
    have filled : (s.notices.get p).isEmpty = false := List.isEmpty_eq_false_iff.mpr (List.ne_nil_of_mem hm)
    simp [setNotices, filled]
  · split
    · rename_i hl
      have room : (s.notices.get p).length < 8 := hl
      have filled : (s.notices.get p ++ [n]).isEmpty = false := by simp
      simp [setNotices, room, filled]
    · rename_i hl
      have full : ¬(s.notices.get p).length < 8 := hl
      simp only [if_neg full, PerPort.set_get]
      rfl

/-- Whether a port watches a record, and its queue and flags. -/
def noticeView (r : RecNo) (s : State) (q : Port) : Bool × List Notice × Flags :=
  ((slotOf s r).watch.get q, s.notices.get q, s.flags.get q)

/-- What the posting of a commit makes of a port's view: nothing where the port does not watch, or committed itself. -/
def postedView (n : Notice) (q : Port) (x : Bool × List Notice × Flags) : Bool × List Notice × Flags :=
  if x.1 = true ∧ q ≠ n.committer then (x.1, posting n x.2) else x

theorem postedView_reached {r : RecNo} {n : Notice} {q : Port} {s : State}
    (h : (slotOf s r).watch.get q = true ∧ q ≠ n.committer) :
    postedView n q (noticeView r s q) =
      ((slotOf s r).watch.get q, posting n (s.notices.get q, s.flags.get q)) := if_pos h

theorem postedView_passed {r : RecNo} {n : Notice} {q : Port} {s : State}
    (h : ¬((slotOf s r).watch.get q = true ∧ q ≠ n.committer)) :
    postedView n q (noticeView r s q) = noticeView r s q := if_neg h

theorem noticeView_postNotice (r : RecNo) (n : Notice) (p q : Port) (s : State) :
    noticeView r (postNotice n p s) q =
      if q = p then ((slotOf s r).watch.get p, posting n (s.notices.get p, s.flags.get p)) else noticeView r s q := by
  rw [postNotice_eq]
  by_cases hq : q = p
  · subst hq
    simp [noticeView, slotOf]
  · simp [noticeView, slotOf, hq]

theorem noticeView_postNotices (r : RecNo) (g : Gen) (p q : Port) (s : State) :
    noticeView r (postNotices r g p s) q = postedView ⟨r, g, p⟩ q (noticeView r s q) := by
  refine forPorts_view (noticeView r) _ (postedView ⟨r, g, p⟩) (fun o s q => ?_) s q
  by_cases h : (slotOf s r).watch.get o = true ∧ o ≠ p
  · rw [if_pos (by simpa using h), noticeView_postNotice, postedView_reached h]
  · rw [if_neg (by simpa using h), postedView_passed h]
    split
    · subst_vars
      rfl
    · rfl

/-- The posting reaches a watcher other than the committer. -/
theorem postNotices_reached {r : RecNo} (g : Gen) {p q : Port} {s : State}
    (h : (slotOf s r).watch.get q = true ∧ q ≠ p) :
    ((postNotices r g p s).notices.get q, (postNotices r g p s).flags.get q) =
      posting ⟨r, g, p⟩ (s.notices.get q, s.flags.get q) :=
  (Prod.mk.inj ((noticeView_postNotices r g p q s).trans (postedView_reached h))).2

theorem postNotices_passed {r : RecNo} (g : Gen) {p q : Port} {s : State}
    (h : ¬((slotOf s r).watch.get q = true ∧ q ≠ p)) :
    (postNotices r g p s).notices.get q = s.notices.get q ∧ (postNotices r g p s).flags.get q = s.flags.get q :=
  Prod.mk.inj (Prod.mk.inj ((noticeView_postNotices r g p q s).trans (postedView_passed h))).2

/-! ## The completion of a RECORD entry (R71) -/

/-- A port's flags once an entry of port `p` has ended: COMMIT_DONE for an attached entry's port (R71, R75). -/
def endedFlags (p : Port) (s : State) (q : Port) : Flags :=
  { s.flags.get q with commitDone := (s.flags.get q).commitDone || (decide (q = p) && !s.engine.detached) }

theorem handOutEnd_flags (e : Entry) (x : CommitResult) (s : State) (q : Port) :
    (handOutEnd e x s).flags.get q = endedFlags e.port s q := by
  rw [handOutEnd_eq, endedFlags]
  cases s.engine.detached with
  | true => simp
  | false =>
    by_cases hq : q = e.port
    · subst hq
      simp
    · simp [hq]

/-- The record's new content, and with it the move of the reads that wait (R6, R36). -/
def contentMoved (r : RecNo) (c : Plane) (g : Gen) (s : State) : State :=
  moveReads r c (setSlot r { slotOf s r with content := .valid c g } s)

theorem contentMoved_only (r : RecNo) (c : Plane) (g : Gen) (s : State) :
    Only { arbiters := true, reads := true } (setSlot r { slotOf s r with content := .valid c g } s)
      (contentMoved r c g s) := moveReads_only r c _

/-- The state in which the notices of a completion are posted: the end has been handed out (R71). -/
def recordEnded (e : Entry) (r : RecNo) (c : Plane) (g : Gen) (s : State) : State :=
  handOutEnd e { record := some r, kind := .record, result := .ok, generation := g } (contentMoved r c g s)

theorem completeRecord_posted (e : Entry) (r : RecNo) (c : Plane) (g : Gen) (s : State) :
    completeRecord e r c g s = engineIdle (postNotices r g e.port (recordEnded e r c g s)) := rfl

/-- The end handed out, the completion posts its notices and leaves the engine idle. -/
theorem recordEnded_only (e : Entry) (r : RecNo) (c : Plane) (g : Gen) (s : State) :
    Only { notices := true, flags := true, engine := true } (recordEnded e r c g s) (completeRecord e r c g s) := by
  rw [completeRecord_posted]
  exact ((postNotices_only _ _ _ _).mono (by decide)).trans ((engineIdle_only _).mono (by decide))

section RecordEnded

variable (e : Entry) (r : RecNo) (c : Plane) (g : Gen) (s : State)

theorem recordEnded_dir : (recordEnded e r c g s).dir =
    { s.dir with slots := s.dir.slots.set r { slotOf s r with content := .valid c g } } := by
  rw [recordEnded, (handOutEnd_only e _ _).dir rfl, (contentMoved_only r c g s).dir rfl]
  rfl

theorem recordEnded_watch : (slotOf (recordEnded e r c g s) r).watch = (slotOf s r).watch := by
  rw [slotOf, recordEnded_dir, Table.get_set_self]

theorem recordEnded_results : (recordEnded e r c g s).results =
    if s.engine.detached then s.results else s.results.set e.port
      (some { record := some r, kind := .record, result := .ok, generation := g }) := by
  have moved := contentMoved_only r c g s
  rw [recordEnded, handOutEnd_eq, moved.engine rfl, moved.results rfl]
  rfl

theorem recordEnded_notices : (recordEnded e r c g s).notices = s.notices := by
  rw [recordEnded, (handOutEnd_only e _ _).notices rfl, (contentMoved_only r c g s).notices rfl]
  rfl

theorem recordEnded_flags (q : Port) : (recordEnded e r c g s).flags.get q = endedFlags e.port s q := by
  have moved := contentMoved_only r c g s
  rw [recordEnded, handOutEnd_flags, endedFlags, moved.engine rfl, moved.flags rfl]
  rfl

theorem completeRecord_sessions : (completeRecord e r c g s).sessions =
    if s.engine.detached then s.sessions else s.sessions.set e.port Session.reset := by
  have moved := contentMoved_only r c g s
  rw [(completeRecord_ended e r c g s).sessions, ← contentMoved, moved.engine rfl, moved.sessions rfl]
  rfl

theorem completeRecord_notices :
    (completeRecord e r c g s).notices = (postNotices r g e.port (recordEnded e r c g s)).notices ∧
    (completeRecord e r c g s).flags = (postNotices r g e.port (recordEnded e r c g s)).flags := by
  rw [completeRecord_posted]
  exact ⟨(engineIdle_only _).notices rfl, (engineIdle_only _).flags rfl⟩

end RecordEnded

/-- At a completion the reads of the record that wait move to its new plane (R36). -/
theorem completeRecord_move {u : State} {c : Plane}
    (free : (u.arbiters.get c).holder = .none → (u.arbiters.get c).waiting = PortSet.empty)
    (e : Entry) (r : RecNo) (g : Gen) : ReadsMove r c u (completeRecord e r c g u) := by
  have moved : ReadsMove r c (setSlot r { slotOf u r with content := .valid c g } u) (contentMoved r c g u) :=
    moveReads_move (u := setSlot r _ u) free r
  have handed := handOutEnd_only e { record := some r, kind := .record, result := .ok, generation := g }
    (contentMoved r c g u)
  have posted := recordEnded_only e r c g u
  exact moved.congr rfl rfl ((posted.reads rfl).trans (handed.reads rfl))
    ((posted.arbiters rfl).trans (handed.arbiters rfl))

/-- The homes that the last step of a RECORD entry writes. -/
def commitHomes : Homes :=
  { array := true, dir := true, engine := true, results := true, sessions := true, arbiters := true, reads := true
    notices := true, flags := true }

/-- The completion after the step has left its page, but for what it makes of reads, arbiters, notices and flags. -/
theorem completeRecord_left {s u : State} (left : Only { array := true, arbiters := true, reads := true } s u)
    (e : Entry) (r : RecNo) (c : Plane) (g : Gen) :
    completeRecord e r c g u = { s with
      array := u.array
      engine := Engine.reset
      dir := { s.dir with slots := s.dir.slots.set r { slotOf s r with content := .valid c g } }
      results := if s.engine.detached then s.results else s.results.set e.port
        (some { record := some r, kind := .record, result := .ok, generation := g })
      sessions := if s.engine.detached then s.sessions else s.sessions.set e.port Session.reset
      flags := (completeRecord e r c g u).flags
      notices := (completeRecord e r c g u).notices
      arbiters := (completeRecord e r c g u).arbiters
      reads := (completeRecord e r c g u).reads } := by
  have only := completeRecord_only e r c g u
  have ended := recordEnded_only e r c g u
  have array : (completeRecord e r c g u).array = u.array := only.array rfl
  have dir : (completeRecord e r c g u).dir =
      { s.dir with slots := s.dir.slots.set r { slotOf s r with content := .valid c g } } := by
    rw [ended.dir rfl, recordEnded_dir, slotOf, left.dir rfl]
    rfl
  have results : (completeRecord e r c g u).results = if s.engine.detached then s.results else s.results.set e.port
      (some { record := some r, kind := .record, result := .ok, generation := g }) := by
    rw [ended.results rfl, recordEnded_results, left.engine rfl, left.results rfl]
  have sessions : (completeRecord e r c g u).sessions =
      if s.engine.detached then s.sessions else s.sessions.set e.port Session.reset := by
    rw [completeRecord_sessions, left.engine rfl, left.sessions rfl]
  have whole : Only commitHomes s (completeRecord e r c g u) :=
    (left.mono (by decide)).trans (only.mono (by decide))
  rw [← array, ← dir, ← results, ← sessions]
  exact whole.toEq

/-- The last program attempt of a RECORD entry passes, and the entry completes. -/
theorem exec_record_completes {s : State} {cleared : PageBytes} {p : Port} {r : RecNo} {cond : Condition} {base : Gen}
    {st : EngineStep} {c : Plane} (he : s.engine.entry = some ⟨p, .record r cond base⟩) (hs : s.engine.step = some st)
    (hstate : s.engine.state = .program) (hph : st.phase = .program) (hk : st.k = st.m) (ht : s.engine.target = some c)
    (hp : s.engine.basePage < Config.planePages) (hold : (s.arbiters.get c).holder = .engine)
    (hx : programAttempt (readPage s.array c s.engine.basePage) (stepContent s st) cleared = stepContent s st) :
    exec (.programAttemptDone cleared) s = .next (completeRecord ⟨p, .record r cond base⟩ r c s.engine.newGen
      (leavePage c s.engine.basePage (stepContent s st) s)) := by
  have plane : stepPlane s st = c := by rw [stepPlane_program hph, ht, Option.getD_some]
  have page : stepPage s st = s.engine.basePage := by rw [stepPage_program hph, if_pos hk, areaBase_record he]
  have under : attemptUnderWay s st = true := attemptUnderWay_of (by rw [plane, hold]) (by rw [hstate, hph]; rfl)
  have left : programAttempt (stepOld s st) (stepContent s st) cleared = stepContent s st := by
    rw [stepOld, plane, page, hx]
  have last : nextStep st = none := nextStep_last (.inr ⟨hph, hk⟩)
  rw [exec_programAttemptDone cleared he hs under hph, page, if_pos hp, left, if_pos rfl]
  simp only [stepPassed, last, completeEntry, leavePage_engine, ht]
  rw [stepLeft, plane, page]

/-- What the posting of a completion makes of a port's notices and flags, by whether it watches and has room (R116). -/
theorem completeRecord_posts {s u : State} (left : Only { array := true, arbiters := true, reads := true } s u)
    (e : Entry) (r : RecNo) (c : Plane) (g : Gen) (q : Port) :
    ((completeRecord e r c g u).notices.get q, (completeRecord e r c g u).flags.get q) =
      if (slotOf s r).watch.get q = true ∧ q ≠ e.port then
        posting ⟨r, g, e.port⟩ (s.notices.get q, endedFlags e.port s q)
      else (s.notices.get q, endedFlags e.port s q) := by
  have watch : (slotOf (recordEnded e r c g u) r).watch = (slotOf s r).watch := by
    rw [recordEnded_watch, slotOf, left.dir rfl]
    rfl
  have before : endedFlags e.port s q = endedFlags e.port u q := by
    rw [endedFlags, endedFlags, left.flags rfl, left.engine rfl]
  obtain ⟨notices, flags⟩ := completeRecord_notices e r c g u
  rw [notices, flags, before, ← left.notices rfl, ← watch, ← recordEnded_notices e r c g u,
    ← recordEnded_flags e r c g u]
  split
  · rename_i h
    exact postNotices_reached g h
  · rename_i h
    obtain ⟨hn, hf⟩ := postNotices_passed g h
    rw [hn, hf]

/-- A port's notices and flags where a notice may have been posted to it: replaced, added, left out for want of room, or
not posted at all (R116, R117, R120). -/
theorem posting_effect {posted : Prop} [Decidable posted] {n : Notice} {old now : List Notice} {f f' : Flags}
    (h : (now, f') = if posted then posting n (old, f) else (old, f)) :
    (posted → (∃ m ∈ old, m.record = n.record) → now = old.map fun m => if m.record = n.record then n else m) ∧
    (posted → (¬∃ m ∈ old, m.record = n.record) → old.length < 8 → now = old ++ [n]) ∧
    (¬(posted ∧ ((∃ m ∈ old, m.record = n.record) ∨ old.length < 8)) → now = old) ∧
    f' = { f with noticePending := f'.noticePending, noticeOverflow := f'.noticeOverflow } ∧
    (f'.noticePending = true ↔
      f.noticePending = true ∨ (posted ∧ ((∃ m ∈ old, m.record = n.record) ∨ old.length < 8))) ∧
    (f'.noticeOverflow = true ↔
      f.noticeOverflow = true ∨ (posted ∧ ¬((∃ m ∈ old, m.record = n.record) ∨ old.length < 8))) := by
  by_cases hp : posted
  · rw [if_pos hp, posting] at h
    by_cases there : ∃ m ∈ old, m.record = n.record
    · rw [if_pos there] at h
      obtain ⟨rfl, rfl⟩ := Prod.mk.inj h
      simp [hp, there]
    · rw [if_neg there] at h
      by_cases room : old.length < 8
      · rw [if_pos room] at h
        obtain ⟨rfl, rfl⟩ := Prod.mk.inj h
        simp [hp, there, room]
      · rw [if_neg room] at h
        obtain ⟨rfl, rfl⟩ := Prod.mk.inj h
        simp [hp, there, room]
  · rw [if_neg hp] at h
    obtain ⟨rfl, rfl⟩ := Prod.mk.inj h
    simp [hp]

/-- Settles O38: the last attempt passes and the tenure ends; the completion then writes the directory and hands out the
end, moves the waiting reads, and posts the notices. -/
theorem recordEntriesComplete : Obligations.RecordEntriesComplete := by
  rintro s cleared p r cond base st c page new he hs hstate hph hk ht rfl hp hold rfl hx
  have left := leavePage_only c s.engine.basePage (stepContent s st) s
  have whole := completeRecord_left left ⟨p, .record r cond base⟩ r c s.engine.newGen
  have posts := completeRecord_posts left ⟨p, .record r cond base⟩ r c s.engine.newGen
  rw [leavePage_array] at whole
  refine ⟨_, exec_record_completes he hs hstate hph hk ht hp hold hx, whole, ?_, fun q => ?_⟩
  · exact completeRecord_move endTenure_free _ r _
  · exact posting_effect (posts q)

end Sys2Proof.Machine

/-! # The lock table at every command

What the invariants of chapter 5 say of a record is a matter of who has a claim to it: the holder and the waiters of its
lock, the sessions on it, the OPENs of it in progress. LOCK, OPEN and the end of an OPEN COPY tenure alone give a port a
claim; every other command lets claims go at most (`Loosens`), and few change the slots or the DELETE entries besides
(`Mild`). -/

namespace Sys2Proof.Machine

open Sys2Proof

/-! ## One lock by itself (R83) -/

/-- The wait list of a lock that a port holds. -/
def WaitsOk (h : Port) (ws : List Wait) : Prop :=
  ws.length ≤ 3 ∧ (ws.map Wait.port).Nodup ∧
    ∀ w ∈ ws, w.port ≠ h ∧ 1 ≤ w.remaining ∧ w.remaining ≤ 255 ∧ 1 ≤ w.lease ∧ w.lease ≤ 255

theorem lockOk_of_held {l : Lock} {h : Port} (hh : l.holder = some h) :
    LockOk l ↔ 1 ≤ l.lease ∧ l.lease ≤ 255 ∧ WaitsOk h l.waits := by
  simp only [LockOk, hh, WaitsOk]

theorem lockOk_of_none {l : Lock} (hh : l.holder = none) : LockOk l ↔ l = Lock.free := by
  obtain ⟨holder, lease, due, waits⟩ := l
  simp only at hh
  simp [LockOk, hh, Lock.free]

theorem lockOk_free : LockOk Lock.free := (lockOk_of_none rfl).mpr rfl

theorem waitsOn_iff (l : Lock) (p : Port) : waitsOn l p = true ↔ ∃ w ∈ l.waits, w.port = p := by
  simp only [waitsOn, List.any_eq_true, decide_eq_true_eq]

theorem waitsOn_iff_mem (l : Lock) (p : Port) : waitsOn l p = true ↔ p ∈ l.waits.map Wait.port := by
  simp only [waitsOn_iff, List.mem_map]

theorem WaitsOk.sublist {h : Port} {ws ws' : List Wait} (x : WaitsOk h ws) (hs : ws'.Sublist ws) : WaitsOk h ws' := by
  obtain ⟨short, nodup, each⟩ := x
  exact ⟨hs.length_le.trans short, nodup.sublist (hs.map _), fun w hw => each w (hs.subset hw)⟩

/-- Behind the head waiter, who takes the lock (R88). -/
theorem WaitsOk.tail {h : Port} {w : Wait} {ws : List Wait} (x : WaitsOk h (w :: ws)) : WaitsOk w.port ws := by
  obtain ⟨short, nodup, each⟩ := x.sublist (List.sublist_cons_self w ws)
  obtain ⟨-, all, -⟩ := x
  rw [List.map_cons, List.nodup_cons] at all
  exact ⟨short, nodup, fun v hv => ⟨fun hp => all.1 (hp ▸ List.mem_map_of_mem hv), (each v hv).2⟩⟩

/-- Three waiters at most: a port besides the holder and the waiters finds room (R87). -/
theorem waiters_length {h p : Port} {ports : List Port} (nodup : ports.Nodup) (hh : h ∉ ports) (hp : p ∉ ports)
    (hne : h ≠ p) : ports.length ≤ 2 := by
  have all : (h :: p :: ports).Nodup :=
    List.nodup_cons.mpr ⟨by simp [hne, hh], List.nodup_cons.mpr ⟨hp, nodup⟩⟩
  have four : (h :: p :: ports).Subset [.a, .b, .c, .d] := fun q _ => by cases q <;> simp
  have most := (all.subperm four).length_le
  simp only [List.length_cons, List.length_nil] at most
  omega

/-- A port joins the list. -/
theorem WaitsOk.join {h : Port} {ws : List Wait} (x : WaitsOk h ws) {w : Wait} (hp : w.port ∉ ws.map Wait.port)
    (hw : w.port ≠ h ∧ 1 ≤ w.remaining ∧ w.remaining ≤ 255 ∧ 1 ≤ w.lease ∧ w.lease ≤ 255) : WaitsOk h (ws ++ [w]) := by
  obtain ⟨-, nodup, each⟩ := x
  have holder : h ∉ ws.map Wait.port := fun hm => by
    obtain ⟨v, hv, hq⟩ := List.mem_map.mp hm
    exact (each v hv).1 hq
  have room := waiters_length nodup holder hp hw.1.symm
  rw [List.length_map] at room
  refine ⟨by rw [List.length_append]; exact Nat.succ_le_succ room, ?_, fun v hv => ?_⟩
  · rw [List.map_append]
    exact nodup.append (List.nodup_singleton _) (by simpa using hp)
  · rcases List.mem_append.mp hv with hv | hv
    · exact each v hv
    · rwa [List.mem_singleton.mp hv]

/-! ### Claims let go -/

/-- A lock that is in order stays so, and no port but one that waited gets hold of it, or waits on it anew. -/
structure Eases (l l' : Lock) : Prop where
  ok : LockOk l → LockOk l'
  holder : ∀ h, l'.holder = some h → l.holder = some h ∨ waitsOn l h = true
  waits : ∀ p, waitsOn l' p = true → waitsOn l p = true

namespace Eases

theorem refl (l : Lock) : Eases l l := ⟨id, fun _ => .inl, fun _ => id⟩

theorem trans {l m n : Lock} (x : Eases l m) (y : Eases m n) : Eases l n := by
  refine ⟨fun h => y.ok (x.ok h), fun h hn => ?_, fun p hn => x.waits p (y.waits p hn)⟩
  rcases y.holder h hn with hm | hm
  · exact x.holder h hm
  · exact .inr (x.waits h hm)

theorem to_free (l : Lock) : Eases l Lock.free := ⟨fun _ => lockOk_free, by simp [Lock.free], by simp [Lock.free, waitsOn]⟩

theorem unheld {l l' : Lock} (x : Eases l l') (hh : l.holder = none) (hw : l.waits = []) :
    l'.holder = none ∧ l'.waits = [] := by
  have none : ∀ p, waitsOn l' p ≠ true := fun p hp => by simpa [waitsOn, hw] using x.waits p hp
  refine ⟨Option.eq_none_iff_forall_ne_some.mpr fun h hl => ?_, List.eq_nil_iff_forall_not_mem.mpr fun w hm => ?_⟩
  · rcases x.holder h hl with hm | hm
    · simp [hh] at hm
    · simp [waitsOn, hw] at hm
  · exact none w.port ((waitsOn_iff _ _).mpr ⟨w, hm, rfl⟩)

theorem free {l l' : Lock} (x : Eases l l') (hl : l = Lock.free) : l' = Lock.free := by
  subst hl
  exact (lockOk_of_none (x.unheld rfl rfl).1).mp (x.ok lockOk_free)

end Eases

/-- Waiters leave the list. -/
theorem eases_sublist (l : Lock) {ws : List Wait} (hs : ws.Sublist l.waits) : Eases l { l with waits := ws } := by
  refine ⟨fun h => ?_, fun _ => .inl, fun p hp => ?_⟩
  · cases hh : l.holder with
    | none =>
      have free := (lockOk_of_none hh).mp h
      have nil : ws = [] := List.sublist_nil.mp (by simpa [free, Lock.free] using hs)
      rw [nil, free]
      exact lockOk_free
    | some q =>
      obtain ⟨least, most, waiters⟩ := (lockOk_of_held hh).mp h
      exact (lockOk_of_held rfl).mpr ⟨least, most, waiters.sublist hs⟩
  · obtain ⟨w, hw, rfl⟩ := (waitsOn_iff _ _).mp hp
    exact (waitsOn_iff _ _).mpr ⟨w, hs.subset hw, rfl⟩

theorem eases_leaveWaits (p : Port) (l : Lock) : Eases l (leaveWaits p l) := eases_sublist l List.filter_sublist

/-- A lock that has been handed on (R88). -/
def handedOn (l : Lock) : Lock :=
  match l.waits with
  | [] => Lock.free
  | w :: ws => grantedTo w.port w.lease ws

theorem handedOn_nil {l : Lock} (h : l.waits = []) : handedOn l = Lock.free := by simp only [handedOn, h]

theorem handedOn_cons {l : Lock} {w : Wait} {ws : List Wait} (h : l.waits = w :: ws) :
    handedOn l = grantedTo w.port w.lease ws := by simp only [handedOn, h]

theorem eases_handedOn (l : Lock) : Eases l (handedOn l) := by
  cases hw : l.waits with
  | nil => rw [handedOn_nil hw]; exact .to_free l
  | cons w ws =>
    rw [handedOn_cons hw]
    refine ⟨fun h => ?_, fun h hh => .inr ((waitsOn_iff _ _).mpr ⟨w, by simp [hw], Option.some.inj hh⟩), fun p hp => ?_⟩
    · cases hh : l.holder with
      | none => simp [(lockOk_of_none hh).mp h, Lock.free] at hw
      | some q =>
        obtain ⟨-, -, waiters⟩ := (lockOk_of_held hh).mp h
        rw [hw] at waiters
        obtain ⟨-, -, each⟩ := id waiters
        obtain ⟨-, -, -, least, most⟩ := each w (by simp)
        exact (lockOk_of_held rfl).mpr ⟨least, most, waiters.tail⟩
    · obtain ⟨v, hv, rfl⟩ := (waitsOn_iff _ _).mp hp
      exact (waitsOn_iff _ _).mpr ⟨v, by rw [hw]; exact List.mem_cons_of_mem _ hv, rfl⟩

/-! ### The period end (R84) -/

@[simp] theorem tickWait_port (w : Wait) : (tickWait w).port = w.port := by unfold tickWait; split <;> rfl

@[simp] theorem tickWait_lease (w : Wait) : (tickWait w).lease = w.lease := by unfold tickWait; split <;> rfl

theorem tickWait_remaining {w : Wait} (h : 1 ≤ w.remaining ∧ w.remaining ≤ 255) :
    1 ≤ (tickWait w).remaining ∧ (tickWait w).remaining ≤ 255 := by
  unfold tickWait
  split <;> simp only <;> omega

theorem tickLock_waits (l : Lock) : (tickLock l).waits = l.waits.map tickWait := by
  unfold tickLock
  cases l.holder <;> simp only
  split <;> rfl

theorem tickLock_holder (l : Lock) : (tickLock l).holder = l.holder := by
  unfold tickLock
  cases l.holder with
  | none => rfl
  | some h => simp only; split <;> rfl

theorem tickLock_of_none {l : Lock} (h : l.holder = none) :
    (tickLock l).lease = l.lease ∧ (tickLock l).leaseDue = l.leaseDue := by
  simp only [tickLock, h, and_self]

/-- The lease of a held lock falls by one, or stands at 1 with its expiry due (log 9). -/
theorem tickLock_of_held {l : Lock} (h : l.holder ≠ none) :
    (tickLock l).lease = (if l.lease ≤ 1 then l.lease else l.lease - 1) ∧
    (tickLock l).leaseDue = (if l.lease ≤ 1 then true else l.leaseDue) := by
  obtain ⟨p, hp⟩ := Option.ne_none_iff_exists'.mp h
  simp only [tickLock, hp]
  split <;> exact ⟨rfl, rfl⟩

theorem waitsOn_tickLock (l : Lock) (p : Port) : waitsOn (tickLock l) p = waitsOn l p := by
  simp only [waitsOn, tickLock_waits, List.any_map, Function.comp_def, tickWait_port]

theorem WaitsOk.tick {h : Port} {ws : List Wait} (x : WaitsOk h ws) : WaitsOk h (ws.map tickWait) := by
  obtain ⟨short, nodup, each⟩ := x
  refine ⟨by simpa using short, by simpa [Function.comp_def] using nodup, fun v hv => ?_⟩
  obtain ⟨w, hw, rfl⟩ := List.mem_map.mp hv
  obtain ⟨other, least, most, lease⟩ := each w hw
  obtain ⟨least', most'⟩ := tickWait_remaining ⟨least, most⟩
  exact ⟨by rwa [tickWait_port], least', most', by rwa [tickWait_lease]⟩

theorem eases_tickLock (l : Lock) : Eases l (tickLock l) := by
  refine ⟨fun h => ?_, fun p hp => .inl (by rwa [tickLock_holder] at hp), fun p hp => by rwa [waitsOn_tickLock] at hp⟩
  cases hh : l.holder with
  | none =>
    rw [(lockOk_of_none hh).mp h]
    exact lockOk_free
  | some q =>
    obtain ⟨least, most, waiters⟩ := (lockOk_of_held hh).mp h
    obtain ⟨lease, -⟩ := tickLock_of_held (l := l) (by simp [hh])
    rw [lockOk_of_held (by rw [tickLock_holder, hh]), tickLock_waits, lease]
    refine ⟨?_, ?_, waiters.tick⟩ <;> split <;> omega

end Sys2Proof.Machine

namespace Sys2Proof.Machine

open Sys2Proof

/-! ## Claims on a record: its lock, the sessions on it, the OPENs of it (R45, R83, R132) -/

theorem sessionOn_iff (s : State) (r : RecNo) (p : Port) :
    sessionOn s r p = true ↔ (s.sessions.get p).state ≠ .idle ∧ (s.sessions.get p).record = some r := by
  rw [sessionOn, Bool.and_eq_true, decide_eq_true_eq, decide_eq_true_eq]
  rfl

/-- Every OPEN in progress was in progress before, and one that was reading, or to be refused, still is. -/
def OpensStay (s t : State) : Prop :=
  ∀ p rd, t.reads.get p = some rd → rd.kind = .openCopy →
    ∃ rd₀, s.reads.get p = some rd₀ ∧ rd₀.kind = .openCopy ∧ rd.record = rd₀.record ∧
      (rd₀.phase = .reading → rd.phase = .reading) ∧ (rd₀.inUse = true → rd.inUse = true)

/-- Nobody gets a claim to a record. -/
structure Loosens (s t : State) : Prop where
  locks : ∀ r, Eases (lockOf s r) (lockOf t r)
  sessions : ∀ r p, sessionOn t r p = true → sessionOn s r p = true
  opens : OpensStay s t

/-- Nor is a slot defined, undefined, given other rights, or marked delete pending. -/
structure Spares (s t : State) : Prop extends Loosens s t where
  entry : ∀ r, (slotOf t r).entry = (slotOf s r).entry
  mark : ∀ r, (slotOf t r).deletePending = (slotOf s r).deletePending

/-- Nor does a DELETE entry come or go. -/
structure Mild (s t : State) : Prop extends Spares s t where
  deletes : deletesUnderWay t = deletesUnderWay s

/-- No lock, no session and no OPEN but one to be refused is on the record. -/
structure Unclaimed (s : State) (r : RecNo) : Prop where
  holder : (lockOf s r).holder = none
  waits : (lockOf s r).waits = []
  sessions : ∀ p, sessionOn s r p = false
  opens : ∀ p rd, s.reads.get p = some rd → rd.record = r → rd.kind = .openCopy → rd.phase = .reading ∧ rd.inUse = true

/-- The delete-pending marks are those of the DELETE entries under way. -/
structure MarksOk (s : State) : Prop where
  nodup : (deletesUnderWay s).Nodup
  mark : ∀ r, (slotOf s r).deletePending = true ↔ r ∈ deletesUnderWay s

theorem pendingOk_iff (s : State) :
    PendingOk s ↔ MarksOk s ∧ ∀ r, (slotOf s r).deletePending = true → Unclaimed s r := by
  have sessions : ∀ r p, sessionOn s r p = false ↔
      ((s.sessions.get p).state ≠ .idle → (s.sessions.get p).record ≠ some r) := fun r p => by
    rw [← Bool.not_eq_true, sessionOn_iff, not_and]
  constructor
  · rintro ⟨nodup, mark, claims⟩
    refine ⟨⟨nodup, mark⟩, fun r hr => ?_⟩
    obtain ⟨holder, waits, idle, opens⟩ := claims r hr
    exact ⟨holder, waits, fun p => (sessions r p).mpr (idle p), opens⟩
  · rintro ⟨⟨nodup, mark⟩, claims⟩
    refine ⟨nodup, mark, fun r hr => ?_⟩
    obtain ⟨holder, waits, idle, opens⟩ := claims r hr
    exact ⟨holder, waits, fun p => (sessions r p).mp (idle p), opens⟩

namespace OpensStay

variable {s t u : State}

theorem refl (s : State) : OpensStay s s := fun _ rd h hk => ⟨rd, h, hk, rfl, id, id⟩

theorem trans (x : OpensStay s t) (y : OpensStay t u) : OpensStay s u := fun p rd h hk => by
  obtain ⟨rd₁, h₁, hk₁, record₁, phase₁, inUse₁⟩ := y p rd h hk
  obtain ⟨rd₀, h₀, hk₀, record₀, phase₀, inUse₀⟩ := x p rd₁ h₁ hk₁
  exact ⟨rd₀, h₀, hk₀, record₁.trans record₀, fun h => phase₁ (phase₀ h), fun h => inUse₁ (inUse₀ h)⟩

theorem of_eq (h : t.reads = s.reads) : OpensStay s t := fun p rd hp hk => ⟨rd, by rw [← h, hp], hk, rfl, id, id⟩

/-- One port's read changes. -/
theorem atPort {p : Port} {x : Option Read} (h : t.reads = s.reads.set p x)
    (hx : ∀ rd, x = some rd → rd.kind = .openCopy →
      ∃ rd₀, s.reads.get p = some rd₀ ∧ rd₀.kind = .openCopy ∧ rd.record = rd₀.record ∧
        (rd₀.phase = .reading → rd.phase = .reading) ∧ (rd₀.inUse = true → rd.inUse = true)) : OpensStay s t :=
  fun q rd hq hk => by
    rw [h, PerPort.get_set] at hq
    split at hq
    · subst_vars
      exact hx rd rfl hk
    · exact ⟨rd, hq, hk, rfl, id, id⟩

end OpensStay

namespace Loosens

variable {s t u : State}

theorem refl (s : State) : Loosens s s := ⟨fun _ => .refl _, fun _ _ => id, .refl s⟩

theorem trans (x : Loosens s t) (y : Loosens t u) : Loosens s u :=
  ⟨fun r => (x.locks r).trans (y.locks r), fun r p h => x.sessions r p (y.sessions r p h), x.opens.trans y.opens⟩

theorem locksOk (x : Loosens s t) (h : LocksOk s) : LocksOk t := by
  obtain ⟨each, once⟩ := h
  exact ⟨fun r => (x.locks r).ok (each r), fun r r' p hr hr' =>
    once r r' p ((x.locks r).waits p hr) ((x.locks r').waits p hr')⟩

theorem unclaimed (x : Loosens s t) {r : RecNo} (h : Unclaimed s r) : Unclaimed t r := by
  obtain ⟨holder, waits⟩ := (x.locks r).unheld h.holder h.waits
  refine ⟨holder, waits, fun p => ?_, fun p rd hp hr hk => ?_⟩
  · rw [← Bool.not_eq_true]
    exact fun on => by simpa [h.sessions p] using x.sessions r p on
  · obtain ⟨rd₀, h₀, hk₀, record, phase, inUse⟩ := x.opens p rd hp hk
    obtain ⟨reading, refused⟩ := h.opens p rd₀ h₀ (record.symm.trans hr) hk₀
    exact ⟨phase reading, inUse refused⟩

end Loosens

namespace Spares

variable {s t u : State}

theorem refl (s : State) : Spares s s := ⟨.refl s, fun _ => rfl, fun _ => rfl⟩

theorem trans (x : Spares s t) (y : Spares t u) : Spares s u :=
  ⟨x.toLoosens.trans y.toLoosens, fun r => (y.entry r).trans (x.entry r), fun r => (y.mark r).trans (x.mark r)⟩

/-- Where the sessions, the reads and the locks stay. -/
theorem of_slots (hl : t.locks = s.locks) (hs : t.sessions = s.sessions) (hr : t.reads = s.reads)
    (entry : ∀ r, (slotOf t r).entry = (slotOf s r).entry)
    (mark : ∀ r, (slotOf t r).deletePending = (slotOf s r).deletePending) : Spares s t :=
  ⟨⟨fun r => by rw [lockOf, lockOf, hl]; exact .refl _,
    fun r p h => by rwa [sessionOn_iff, hs, ← sessionOn_iff] at h, .of_eq hr⟩, entry, mark⟩

end Spares

namespace Mild

variable {s t u : State}

theorem refl (s : State) : Mild s s := ⟨.refl s, rfl⟩

theorem trans (x : Mild s t) (y : Mild t u) : Mild s u := ⟨x.toSpares.trans y.toSpares, y.deletes.trans x.deletes⟩

theorem forPorts {f : Port → State → State} (x : ∀ p s, Mild s (f p s)) (s : State) : Mild s (forPorts f s) :=
  (((x _ _).trans (x _ _)).trans (x _ _)).trans (x _ _)

theorem foldl {α : Type} {f : State → α → State} (x : ∀ s a, Mild s (f s a)) (l : List α) (s : State) :
    Mild s (l.foldl f s) := by
  induction l generalizing s with
  | nil => exact refl s
  | cons a l ih => exact (x s a).trans (ih _)

end Mild

/-- The homes that the slots, the sessions, the entries, the reads and the locks are none of. -/
def mildHomes : Homes :=
  { pending := true, array := true, ports := true, clearLow := true, csLow := true, results := true, arbiters := true
    reports := true, notices := true, flags := true, masks := true, mount := true, device := true, rc := true }

theorem deletesUnderWay_congr {s t : State} (he : t.engine.entry = s.engine.entry) (hq : t.queue = s.queue) :
    deletesUnderWay t = deletesUnderWay s := by
  simp only [deletesUnderWay, he, hq]

theorem slotOf_congr {s t : State} (h : t.dir = s.dir) (r : RecNo) : slotOf t r = slotOf s r := by
  simp only [slotOf, h]

theorem Only.spares {h : Homes} {s t : State} (x : Only h s t)
    (hh : h.le { mildHomes with engine := true, queue := true } = true) : Spares s t := by
  have y := x.mono hh
  have slots := slotOf_congr (y.dir rfl)
  exact .of_slots (y.locks rfl) (y.sessions rfl) (y.reads rfl) (fun r => by rw [slots]) fun r => by rw [slots]

theorem Only.mild {h : Homes} {s t : State} (x : Only h s t) (hh : h.le mildHomes = true) : Mild s t := by
  have y := x.mono hh
  exact ⟨y.spares (by decide), deletesUnderWay_congr (by rw [y.engine rfl]) (y.queue rfl)⟩

/-! ### What the statements say, kept -/

/-- What R83 says of the lock of one record and its slot. -/
def RightsAt (x : Slot) (l : Lock) : Prop :=
  (x.entry = none → l = Lock.free) ∧
    ∀ e, x.entry = some e →
      (∀ h, l.holder = some h → e.writeSet.get h = true) ∧ ∀ w ∈ l.waits, e.writeSet.get w.port = true

theorem rightsOk_iff (s : State) : RightsOk s ↔ ∀ r, RightsAt (slotOf s r) (lockOf s r) := Iff.rfl

theorem RightsAt.eased {x y : Slot} {l l' : Lock} (h : RightsAt x l) (he : y.entry = x.entry) (hl : Eases l l') :
    RightsAt y l' := by
  obtain ⟨free, rights⟩ := h
  refine ⟨fun hn => hl.free (free (he.symm.trans hn)), fun e hy => ?_⟩
  obtain ⟨holds, waits⟩ := rights e (he.symm.trans hy)
  have waiter : ∀ p, waitsOn l p = true → e.writeSet.get p = true := fun p hp => by
    obtain ⟨w, hw, rfl⟩ := (waitsOn_iff _ _).mp hp
    exact waits w hw
  refine ⟨fun h hh => ?_, fun w hw => waiter _ (hl.waits _ ((waitsOn_iff _ _).mpr ⟨w, hw, rfl⟩))⟩
  rcases hl.holder h hh with held | waited
  · exact holds h held
  · exact waiter h waited

/-- A free lock asks for no rights. -/
theorem rightsAt_free (x : Slot) : RightsAt x Lock.free := ⟨fun _ => rfl, by simp [Lock.free]⟩

/-- Rights and marks together: what the statement asks of the claims. -/
structure ClaimsOk (s : State) : Prop where
  rights : RightsOk s
  marks : MarksOk s
  unclaimed : ∀ r, (slotOf s r).deletePending = true → Unclaimed s r

theorem claimsOk_iff (s : State) : ClaimsOk s ↔ RightsOk s ∧ PendingOk s := by
  rw [pendingOk_iff]
  exact ⟨fun h => ⟨h.rights, h.marks, h.unclaimed⟩, fun ⟨rights, marks, unclaimed⟩ => ⟨rights, marks, unclaimed⟩⟩

namespace ClaimsOk

variable {s t : State}

/-- The marks and the DELETE entries stay. -/
theorem of_marks (h : ClaimsOk s) (rights : RightsOk t)
    (mark : ∀ r, (slotOf t r).deletePending = (slotOf s r).deletePending)
    (deletes : (deletesUnderWay s).Perm (deletesUnderWay t))
    (unclaimed : ∀ r, (slotOf s r).deletePending = true → Unclaimed s r → Unclaimed t r) : ClaimsOk t := by
  refine ⟨rights, ⟨deletes.nodup_iff.mp h.marks.nodup, fun r => by rw [mark, h.marks.mark, deletes.mem_iff]⟩,
    fun r hr => ?_⟩
  rw [mark] at hr
  exact unclaimed r hr (h.unclaimed r hr)

/-- A DELETE entry is gone, and with it its record's mark. -/
theorem of_unmarked (h : ClaimsOk s) {r : RecNo} (rights : RightsOk t) (x : Loosens s t)
    (mark : ∀ q, (slotOf t q).deletePending = if q = r then false else (slotOf s q).deletePending)
    (deletes : (deletesUnderWay s).Perm (r :: deletesUnderWay t)) : ClaimsOk t := by
  obtain ⟨gone, nodup⟩ := List.nodup_cons.mp (deletes.nodup_iff.mp h.marks.nodup)
  refine ⟨rights, ⟨nodup, fun q => ?_⟩, fun q hq => ?_⟩
  · rw [mark]
    split
    · subst_vars
      simpa using gone
    · rw [h.marks.mark, deletes.mem_iff, List.mem_cons]
      simp [*]
  · rw [mark] at hq
    split at hq
    · contradiction
    · exact x.unclaimed (h.unclaimed q hq)

/-- No mark and no DELETE entry. -/
theorem of_none (rights : RightsOk t) (mark : ∀ r, (slotOf t r).deletePending = false) (deletes : deletesUnderWay t = []) :
    ClaimsOk t :=
  ⟨rights, ⟨by rw [deletes]; exact List.nodup_nil, fun r => by simp [mark, deletes]⟩, fun r hr => by simp [mark] at hr⟩

theorem rights_spared (h : ClaimsOk s) (x : Spares s t) : RightsOk t := fun r =>
  RightsAt.eased (h.rights r) (x.entry r) (x.locks r)

end ClaimsOk

theorem Mild.claims {s t : State} (x : Mild s t) (h : ClaimsOk s) : ClaimsOk t :=
  h.of_marks (h.rights_spared x.toSpares) x.mark (.of_eq x.deletes.symm) fun _ _ => x.toLoosens.unclaimed

end Sys2Proof.Machine

namespace Sys2Proof.Machine

open Sys2Proof

/-! ## The operations that give nobody a claim -/

/-- A session that is not IDLE was on its record before. -/
theorem setSession_mild {p : Port} {x : Session} {s : State}
    (hx : x.state ≠ .idle → ∀ r, x.record = some r →
      (s.sessions.get p).state ≠ .idle ∧ (s.sessions.get p).record = some r) : Mild s (setSession p x s) := by
  refine ⟨⟨⟨fun r => .refl _, fun r q h => ?_, .of_eq rfl⟩, fun _ => rfl, fun _ => rfl⟩, rfl⟩
  rw [sessionOn_iff, setSession_sessions, PerPort.get_set] at h
  rw [sessionOn_iff]
  split at h
  · subst_vars
    exact hx h.1 r h.2
  · exact h

theorem setSession_reset_mild (p : Port) (s : State) : Mild s (setSession p Session.reset s) :=
  setSession_mild fun h => absurd rfl h

theorem setSlot_mild {r : RecNo} {x : Slot} {s : State} (he : x.entry = (slotOf s r).entry)
    (hp : x.deletePending = (slotOf s r).deletePending) : Mild s (setSlot r x s) := by
  refine ⟨.of_slots rfl rfl rfl (fun q => ?_) fun q => ?_, rfl⟩ <;> rw [slotOf_setSlot] <;> split
  · subst_vars; exact he
  · rfl
  · subst_vars; exact hp
  · rfl

theorem setEngine_mild {x : Engine} {s : State} (h : x.entry = s.engine.entry) : Mild s (setEngine x s) :=
  ⟨(setEngine_only x s).spares (by decide), deletesUnderWay_congr h rfl⟩

/-! ### Locks (R84, R87, R88, R97, R98) -/

/-- The locks change, none for a port that did not hold it or wait. -/
theorem mild_of_locks {h : Homes} {s t : State} (x : Only h s t) (hl : ∀ r, Eases (lockOf s r) (lockOf t r))
    (hh : h.le { mildHomes with locks := true } = true) : Mild s t := by
  have y := x.mono hh
  have slots := slotOf_congr (y.dir rfl)
  exact ⟨⟨⟨hl, fun r p on => by rwa [sessionOn_iff, y.sessions rfl, ← sessionOn_iff] at on, .of_eq (y.reads rfl)⟩,
    fun r => by rw [slots], fun r => by rw [slots]⟩, deletesUnderWay_congr (by rw [y.engine rfl]) (y.queue rfl)⟩

theorem setLock_mild {r : RecNo} {l : Lock} {s : State} (h : Eases (lockOf s r) l) : Mild s (setLock r l s) := by
  refine mild_of_locks (setLock_only r l s) (fun q => ?_) (by decide)
  rw [lockOf_setLock]
  split
  · subst_vars; exact h
  · exact .refl _

theorem mapLocks_mild {f : Lock → Lock} (h : ∀ l, Eases l (f l)) (s : State) :
    Mild s { s with locks := s.locks.map f } := by
  refine mild_of_locks (h := { locks := true }) (.ofEq rfl) (fun r => ?_) (by decide)
  rw [show lockOf { s with locks := s.locks.map f } r = f (lockOf s r) from Table.get_map _ _ _]
  exact h _

theorem lockOf_handOn_eq (r q : RecNo) (s : State) :
    lockOf (handOn r s) q = if r = q then handedOn (lockOf s r) else lockOf s q := lockOf_handOn r q s

theorem handOn_mild (r : RecNo) (s : State) : Mild s (handOn r s) := by
  refine mild_of_locks (handOn_only r s) (fun q => ?_) (by decide)
  rw [lockOf_handOn_eq]
  split
  · subst_vars; exact eases_handedOn _
  · exact .refl _

theorem clearLocks_mild (p : Port) (s : State) : Mild s (clearLocks p s) := by
  refine ((mapLocks_mild (eases_leaveWaits p) s).trans (Mild.foldl (fun u r => ?_) allRecords _)).trans
    ((setReport_only p _ _).mild (by decide))
  split
  · exact handOn_mild r u
  · exact .refl u

theorem raiseLeaseLost_only (h : Port) (r : RecNo) (s : State) :
    Only { reports := true, flags := true } s (raiseLeaseLost h (reportLost h r s)) := .ofEq rfl

/-- The waiters that a new write set leaves in (R98). -/
def waitersWithin (ws : PortSet) (l : Lock) : Lock := { l with waits := l.waits.filter fun w => ws.get w.port }

/-- A new write set on the record's lock: the waiters outside it leave; so does a holder outside it (R98). -/
def withinWriteSet (ws : PortSet) (l : Lock) : Lock :=
  match l.holder with
  | some h => if ws.get h then waitersWithin ws l else handedOn (waitersWithin ws l)
  | none => waitersWithin ws l

theorem lockOf_expelWaiters (r q : RecNo) (out : List Wait) (s : State) :
    lockOf (out.foldl (fun s w => expelWaiter r w.port s) s) q = lockOf s q := by
  have expelled : Only { reports := true, flags := true } s (out.foldl (fun s w => expelWaiter r w.port s) s) :=
    Only.foldl (fun _ _ => .ofEq rfl) out s
  rw [lockOf, expelled.locks rfl, lockOf]

theorem lockOf_applyWriteSet (r q : RecNo) (ws : PortSet) (s : State) :
    lockOf (applyWriteSet r ws s) q = if r = q then withinWriteSet ws (lockOf s r) else lockOf s q := by
  have lost : ∀ h u q, lockOf (raiseLeaseLost h (reportLost h r u)) q = lockOf u q := fun _ _ _ => rfl
  simp only [applyWriteSet, withinWriteSet]
  cases hh : (lockOf s r).holder with
  | none => simp only [lockOf_expelWaiters, lockOf_setLock, waitersWithin, hh]
  | some h =>
    simp only
    split
    · simp only [lockOf_expelWaiters, lockOf_setLock, waitersWithin, hh]
    · simp only [lockOf_handOn_eq, lost, lockOf_expelWaiters, lockOf_setLock, if_true, waitersWithin, hh]
      split <;> rfl

theorem eases_waitersWithin (ws : PortSet) (l : Lock) : Eases l (waitersWithin ws l) := eases_sublist l List.filter_sublist

theorem eases_withinWriteSet (ws : PortSet) (l : Lock) : Eases l (withinWriteSet ws l) := by
  have within := eases_waitersWithin ws l
  unfold withinWriteSet
  repeat' split
  · exact within
  · exact within.trans (eases_handedOn _)
  · exact within

/-- Afterwards every holder and waiter is in the write set. -/
theorem withinWriteSet_rights (ws : PortSet) (l : Lock) :
    (∀ h, (withinWriteSet ws l).holder = some h → ws.get h = true) ∧
    ∀ w ∈ (withinWriteSet ws l).waits, ws.get w.port = true := by
  have within : ∀ w ∈ (waitersWithin ws l).waits, ws.get w.port = true := fun w hw => (List.mem_filter.mp hw).2
  unfold withinWriteSet
  split
  · rename_i h hh
    split
    · exact ⟨fun q hq => by obtain rfl : h = q := Option.some.inj (hh.symm.trans hq); assumption, within⟩
    · cases hw : (waitersWithin ws l).waits with
      | nil => rw [handedOn_nil hw]; exact ⟨by simp [Lock.free], by simp [Lock.free]⟩
      | cons w rest =>
        rw [handedOn_cons hw]
        rw [hw] at within
        exact ⟨fun q hq => Option.some.inj hq ▸ within w (by simp), fun v hv => within v (List.mem_cons_of_mem _ hv)⟩
  · rename_i hh
    exact ⟨fun q hq => by simp [waitersWithin, hh] at hq, within⟩

theorem applyWriteSet_mild (r : RecNo) (ws : PortSet) (s : State) : Mild s (applyWriteSet r ws s) := by
  refine mild_of_locks (applyWriteSet_only r ws s) (fun q => ?_) (by decide)
  rw [lockOf_applyWriteSet]
  split
  · subst_vars; exact eases_withinWriteSet ws _
  · exact .refl _

/-! ### Reads (R34, R36, R37, R45, R110) -/

/-- The reads change besides, and no OPEN begins. -/
theorem mild_of_opens {h : Homes} {s t : State} (x : Only h s t) (ho : OpensStay s t)
    (hh : h.le { mildHomes with reads := true } = true) : Mild s t := by
  have y := x.mono hh
  have slots := slotOf_congr (y.dir rfl)
  exact ⟨⟨⟨fun r => by rw [lockOf, lockOf, y.locks rfl]; exact .refl _,
    fun r p on => by rwa [sessionOn_iff, y.sessions rfl, ← sessionOn_iff] at on, ho⟩,
    fun r => by rw [slots], fun r => by rw [slots]⟩, deletesUnderWay_congr (by rw [y.engine rfl]) (y.queue rfl)⟩

/-- A read that is no OPEN begins, or one ends. -/
theorem setRead_mild {p : Port} {x : Option Read} {s : State} (h : ∀ rd, x = some rd → rd.kind ≠ .openCopy) :
    Mild s (setRead p x s) :=
  mild_of_opens (setRead_only p x s) (.atPort rfl fun rd hx hk => absurd hk (h rd hx)) (by decide)

theorem setRead_none_mild (p : Port) (s : State) : Mild s (setRead p none s) := setRead_mild (by simp)

theorem grantRead_mild (pl : Plane) (p : Port) (s : State) : Mild s (grantRead pl p s) := by
  refine mild_of_opens (grantRead_only pl p s) (.atPort rfl fun rd hx hk => ?_) (by decide)
  obtain ⟨rd₀, h₀, rfl⟩ := Option.map_eq_some_iff.mp hx
  exact ⟨rd₀, h₀, hk, rfl, fun _ => rfl, id⟩

theorem setArbiter_mild (pl : Plane) (x : Arbiter) (s : State) : Mild s (setArbiter pl x s) :=
  (setArbiter_only pl x s).mild (by decide)

theorem endTenure_mild (pl : Plane) (s : State) : Mild s (endTenure pl s) := by
  simp only [endTenure]
  repeat' split
  · exact grantRead_mild pl _ s
  · exact setArbiter_mild pl _ s
  · exact setArbiter_mild pl _ s

theorem joinRead_mild (pl : Plane) (p : Port) (s : State) : Mild s (joinRead pl p s) := by
  simp only [joinRead]
  split
  · exact grantRead_mild pl p s
  · exact setArbiter_mild pl _ s

theorem moveRead_mild (r : RecNo) (c : Plane) (p : Port) (s : State) : Mild s (moveRead r c p s) := by
  refine mild_of_opens (moveRead_only r c p s) (fun q rd hq hk => ?_) (by decide)
  rw [moveRead_reads] at hq
  split at hq
  · subst_vars
    obtain ⟨rd₀, h₀, rfl⟩ := Option.map_eq_some_iff.mp hq
    by_cases moves : rd₀.record = r ∧ rd₀.phase = .waiting
    · rw [if_pos moves] at hk ⊢
      exact ⟨rd₀, h₀, hk, rfl, id, id⟩
    · rw [if_neg moves] at hk ⊢
      exact ⟨rd₀, h₀, hk, rfl, id, id⟩
  · exact ⟨rd, hq, hk, rfl, id, id⟩

theorem moveReads_mild (r : RecNo) (c : Plane) (s : State) : Mild s (moveReads r c s) := by
  have moved := Mild.forPorts (moveRead_mild r c) s
  simp only [moveReads]
  split
  · exact moved.trans (endTenure_mild c _)
  · exact moved

theorem withdrawRead_mild (p : Port) (s : State) : Mild s (withdrawRead p s) :=
  mild_of_opens (withdrawRead_only p s) (.atPort (withdrawRead_reads p s) (by simp)) (by decide)

theorem clearRead_mild (p : Port) (s : State) : Mild s (clearRead p s) :=
  mild_of_opens (clearRead_only p s) (.atPort (clearRead_reads p s) (by simp)) (by decide)

theorem respond_mild (p : Port) (c : ResultCode) (b : List Byte) (s : State) : Mild s (respond p c b s) :=
  (respond_only p c b s).mild (by decide)

theorem refuse_mild (p : Port) (c : ResultCode) (s : State) : Mild s (refuse p c s) := respond_mild p c [] s

theorem answer_mild (p : Port) (c : ResultCode) (b : List Byte) (s : State) : Mild s (answer p c b s) :=
  (answer_only p c b s).mild (by decide)

theorem refuseDeleted_mild (r : RecNo) (p : Port) (s : State) : Mild s (refuseDeleted r p s) := by
  unfold refuseDeleted
  repeat' split
  · exact (withdrawRead_mild p s).trans (answer_mild p _ [] _)
  · exact (withdrawRead_mild p s).trans (answer_mild p _ [] _)
  · exact .refl s
  · exact .refl s

/-- What the acceptance of a record's DELETE makes of a port's read (R45). -/
def refusedOpen (r : RecNo) : Option Read → Option Read
  | some rd =>
    if rd.record = r ∧ rd.kind = .openCopy then
      match rd.phase with
      | .waiting => none
      | .reading => some { rd with inUse := true }
    else some rd
  | none => none

theorem refuseOpen_reads (r : RecNo) (p : Port) (s : State) :
    (refuseOpen r p s).reads = s.reads.set p (refusedOpen r (s.reads.get p)) := by
  have answered : ∀ u, (answer p .inUse [] u).reads = u.reads := fun u => (answer_only p _ _ u).reads rfl
  unfold refuseOpen
  cases h : s.reads.get p with
  | none =>
    show s.reads = s.reads.set p none
    rw [← h, PerPort.set_get]
  | some rd =>
    simp only [refusedOpen]
    split
    · cases rd.phase with
      | waiting => simp only [answered, withdrawRead_reads]
      | reading => rfl
    · rw [← h, PerPort.set_get]

theorem refuseOpen_mild (r : RecNo) (p : Port) (s : State) : Mild s (refuseOpen r p s) := by
  unfold refuseOpen
  split
  · rename_i rd hrd
    repeat' split
    · exact (withdrawRead_mild p s).trans (answer_mild p _ [] _)
    · refine mild_of_opens (setRead_only p _ s) (.atPort rfl fun rd' hx hk => ?_) (by decide)
      obtain rfl := Option.some.inj hx
      exact ⟨rd, hrd, hk, rfl, id, fun _ => rfl⟩
    · exact .refl s
  · exact .refl s

/-! ### Slots and entries -/

theorem stopWatching_mild (r : RecNo) (p : Port) (s : State) : Mild s (stopWatching r p s) :=
  (setSlot_mild (x := { slotOf s r with watch := (slotOf s r).watch.set p false }) rfl rfl).trans
    ((dropNotice_only r p _).mild (by decide))

theorem leaveWatchSets_mild (p : Port) (s : State) : Mild s (leaveWatchSets p s) := by
  have slots : ∀ r, slotOf (leaveWatchSets p s) r = { slotOf s r with watch := (slotOf s r).watch.set p false } :=
    fun r => Table.get_map _ _ _
  exact ⟨.of_slots rfl rfl rfl (fun r => by rw [slots]) fun r => by rw [slots], rfl⟩

theorem leavePage_mild (pl : Plane) (page : Nat) (x : PageBytes) (s : State) : Mild s (leavePage pl page x s) :=
  ((setArray_only _ s).mild (by decide)).trans (endTenure_mild pl _)

theorem askStep_mild (st : EngineStep) (n : Nat) (s : State) : Mild s (askStep st n s) := by
  refine Mild.trans ?_ ((joinEngine_only _ _).mild (by decide))
  exact setEngine_mild rfl

theorem handOutEnd_mild (e : Entry) (x : CommitResult) (s : State) : Mild s (handOutEnd e x s) := by
  unfold handOutEnd
  split
  · exact .refl s
  · exact (((setResult_only e.port (some x) s).mild (by decide)).trans (setSession_reset_mild e.port _)).trans
      ((setFlags_only e.port _ _).mild (by decide))

theorem engineIdle_spares (s : State) : Spares s (engineIdle s) := (engineIdle_only s).spares (by decide)

theorem detachEntry_mild (p : Port) (s : State) : Mild s (detachEntry p s) := by
  unfold detachEntry
  repeat' split
  · exact setEngine_mild rfl
  · exact .refl s
  · exact .refl s

end Sys2Proof.Machine

namespace Sys2Proof.Machine

open Sys2Proof

/-! ## The end of the engine's entry (R71, R72, R137, R138) -/

theorem deletedRecord_eq_some {e : Entry} {r : RecNo} : deletedRecord e = some r ↔ e.work = .layout (.delete r) := by
  unfold deletedRecord
  constructor
  · intro h
    split at h
    · rw [← Option.some.inj h]; assumption
    · contradiction
  · intro h
    rw [h]

theorem not_delete {e : Entry} (h : deletedRecord e = none) (r : RecNo) : e.work ≠ .layout (.delete r) := fun hw => by
  simp [deletedRecord_eq_some.mpr hw] at h

theorem deletesUnderWay_of_entry {s : State} {e : Entry} (h : s.engine.entry = some e) :
    deletesUnderWay s = (deletedRecord e).toList ++ s.queue.filterMap deletedRecord := by
  simp only [deletesUnderWay, h, Option.toList_some, List.singleton_append, List.filterMap_cons]
  cases deletedRecord e <;> rfl

theorem deletesUnderWay_of_none {s : State} (h : s.engine.entry = none) :
    deletesUnderWay s = s.queue.filterMap deletedRecord := by
  simp only [deletesUnderWay, h, Option.toList_none, List.nil_append]

/-- Nothing of the locks, the sessions and the reads changes. -/
theorem Only.loosens {h : Homes} {s t : State} (x : Only h s t)
    (hh : h.le { mildHomes with engine := true, queue := true, dir := true } = true) : Loosens s t := by
  have y := x.mono hh
  exact ⟨fun r => by rw [lockOf, lockOf, y.locks rfl]; exact .refl _,
    fun r p on => by rwa [sessionOn_iff, y.sessions rfl, ← sessionOn_iff] at on, .of_eq (y.reads rfl)⟩

theorem locksOk_of_eq {s t : State} (hl : t.locks = s.locks) (h : LocksOk s) : LocksOk t := by
  simpa only [LocksOk, lockOf, hl] using h

/-- The end is handed out, and the engine is IDLE. -/
theorem handedOut_spares (e : Entry) (x : CommitResult) (s : State) : Spares s (engineIdle (handOutEnd e x s)) :=
  (handOutEnd_mild e x s).toSpares.trans (engineIdle_spares _)

namespace ClaimsOk

variable {s t : State} {e : Entry}

/-- An entry that is no DELETE is over. -/
theorem ended (h : ClaimsOk s) (he : s.engine.entry = some e) (hw : deletedRecord e = none) (x : Spares s t)
    (engine : t.engine.entry = none) (queue : t.queue = s.queue) : ClaimsOk t := by
  have deletes : deletesUnderWay s = deletesUnderWay t := by
    rw [deletesUnderWay_of_entry he, deletesUnderWay_of_none engine, queue, hw]
    rfl
  exact h.of_marks (h.rights_spared x) x.mark (.of_eq deletes) fun _ _ => x.toLoosens.unclaimed

theorem failRecord (h : ClaimsOk s) (he : s.engine.entry = some e) (hw : deletedRecord e = none) (r : RecNo)
    (code : ResultCode) : ClaimsOk (Machine.failRecord e r code s) :=
  h.ended he hw (handedOut_spares e _ s) rfl ((failRecord_only e r code s).queue rfl)

/-- A DELETE that fails leaves its record unmarked (R138). -/
theorem failDelete (h : ClaimsOk s) (he : s.engine.entry = some e) {r : RecNo} (hw : e.work = .layout (.delete r))
    (code : ResultCode) : ClaimsOk (Machine.failLayout e code s) := by
  have undone : undoEntry e s = setSlot r { slotOf s r with deletePending := false } s := undoEntry_delete hw s
  have queue : (Machine.failLayout e code s).queue = s.queue := (failLayout_ended e code s).queue.trans
    ((undoEntry_only e s).queue rfl)
  have spares : Spares (undoEntry e s) (Machine.failLayout e code s) := handedOut_spares e _ _
  have loosens : Loosens s (Machine.failLayout e code s) :=
    ((undoEntry_only e s).loosens (by decide)).trans spares.toLoosens
  rw [undone] at spares
  refine h.of_unmarked (r := r) (fun q => RightsAt.eased (h.rights q) ?_ (loosens.locks q)) loosens (fun q => ?_) ?_
  · rw [spares.entry, slotOf_setSlot]
    split
    · subst_vars; rfl
    · rfl
  · simp only [spares.mark, slotOf_setSlot, eq_comm (a := r)]
    split <;> rfl
  · rw [deletesUnderWay_of_entry he, deletedRecord_eq_some.mpr hw, deletesUnderWay_of_none rfl, queue]
    exact .refl _

theorem failLayout (h : ClaimsOk s) (he : s.engine.entry = some e) (code : ResultCode) :
    ClaimsOk (Machine.failLayout e code s) := by
  cases hw : deletedRecord e with
  | some r => exact h.failDelete he (deletedRecord_eq_some.mp hw) code
  | none =>
    have undone : undoEntry e s = s := undoEntry_of_not_delete (not_delete hw) s
    have spares : Spares (undoEntry e s) (Machine.failLayout e code s) := handedOut_spares e _ _
    rw [undone] at spares
    exact h.ended he hw spares rfl ((failLayout_ended e code s).queue.trans ((undoEntry_only e s).queue rfl))

theorem failFault (h : ClaimsOk s) (he : s.engine.entry = some e) : ClaimsOk (Machine.failFault e s) := by
  unfold Machine.failFault
  split
  · rename_i hw
    exact h.failRecord he (by simp only [deletedRecord, hw]) _ _
  · exact h.failLayout he _

theorem completeRecord (h : ClaimsOk s) (he : s.engine.entry = some e) (hw : deletedRecord e = none) (r : RecNo)
    (c : Plane) (g : Gen) : ClaimsOk (Machine.completeRecord e r c g s) := by
  have moved : Mild s (moveReads r c (setSlot r { slotOf s r with content := .valid c g } s)) :=
    (setSlot_mild (x := { slotOf s r with content := .valid c g }) rfl rfl).trans (moveReads_mild r c _)
  have posted := (moved.trans (handOutEnd_mild e { record := some r, kind := .record, result := .ok, generation := g } _)).trans
    ((postNotices_only r g e.port _).mild (by decide))
  exact h.ended he hw (posted.toSpares.trans (engineIdle_spares _)) rfl ((completeRecord_only e r c g s).queue rfl)

end ClaimsOk

/-! ### The completion of a layout entry (R98, R137) -/

theorem applyLayoutOp_mild (op : LayoutOp) (s : State) : Mild (layoutChanged op s) (applyLayoutOp op s) := by
  cases op with
  | format | define => exact .refl _
  | delete r =>
    exact Mild.forPorts (fun p u => (refuseDeleted_mild r p u).trans ((dropNotice_only r p _).mild (by decide))) _
  | setAccess r rs ws g =>
    refine Mild.trans (Mild.forPorts (fun p u => ?_) _) (applyWriteSet_mild r ws _)
    split
    · exact stopWatching_mild r p u
    · exact .refl u

theorem layoutChanged_loosens (op : LayoutOp) (s : State) : Loosens s (layoutChanged op s) := by
  have only : Only { dir := true, device := true } s (layoutChanged op s) := by cases op <;> exact .ofEq rfl
  exact only.loosens (by decide)

/-- After the slots have changed nobody gets a claim, and no other slot changes. -/
theorem completeLayout_spares (e : Entry) (op : LayoutOp) (c : Plane) (g : Gen) (s : State) :
    Spares (layoutChanged op (setLayout (some ⟨c, g⟩) s)) (completeLayout e op c g s) := by
  refine Spares.trans ?_ (engineIdle_spares _)
  refine Spares.trans ?_ (Mild.forPorts (fun p u => (setFlags_only p _ u).mild (by decide)) _).toSpares
  exact ((applyLayoutOp_mild op _).trans (handOutEnd_mild e _ _)).toSpares

theorem completeLayout_loosens (e : Entry) (op : LayoutOp) (c : Plane) (g : Gen) (s : State) :
    Loosens s (completeLayout e op c g s) := by
  have layout : Loosens s (setLayout (some ⟨c, g⟩) s) := (setLayout_only _ s).loosens (by decide)
  exact (layout.trans (layoutChanged_loosens op _)).trans (completeLayout_spares e op c g s).toLoosens

/-- The lock after a SET ACCESS (R98). -/
theorem lockOf_completeSetAccess (e : Entry) (r : RecNo) (rs ws : PortSet) (g : Bool) (c : Plane) (n : Gen) (s : State) :
    lockOf (completeLayout e (.setAccess r rs ws g) c n s) r = withinWriteSet ws (lockOf s r) := by
  have ended : Only { results := true, sessions := true, flags := true, engine := true }
      (applyLayoutOp (.setAccess r rs ws g) (setLayout (some ⟨c, n⟩) s)) (completeLayout e (.setAccess r rs ws g) c n s) := by
    refine Only.trans ?_ ((engineIdle_only _).mono (by decide))
    refine Only.trans ?_ (Only.forPorts (fun p u => (setFlags_only p _ u).mono (by decide)) _)
    exact (handOutEnd_only _ _ _).mono (by decide)
  have unwatched : ∀ u : State, Only { notices := true, flags := true, dir := true } u (forPorts (fun p u =>
      if (slotOf u r).watch.get p && !rs.get p then stopWatching r p u else u) u) := fun u => by
    refine Only.forPorts (fun p u => ?_) u
    split
    · exact stopWatching_only r p u
    · exact .refl _ u
  rw [lockOf, ended.locks rfl]
  simp only [applyLayoutOp, setAccessEffects]
  rw [← lockOf, lockOf_applyWriteSet, if_pos rfl, lockOf, (unwatched _).locks rfl]
  rfl

section LayoutCompleted

variable {s : State} (h : ClaimsOk s) (hl : LocksOk s) (hd : DirectoryInv s) (p : Port) (c : Plane) (g : Gen)

theorem completeLayout_deletes (e : Entry) (op : LayoutOp) :
    deletesUnderWay (completeLayout e op c g s) = s.queue.filterMap deletedRecord := by
  rw [deletesUnderWay_of_none rfl, (completeLayout_only e op c g s).queue rfl]

include h

/-- An undefined record is not marked. -/
theorem ClaimsOk.not_deleted (hd : DirectoryInv s) {r : RecNo} (he : (slotOf s r).entry = none) :
    (slotOf s r).deletePending = false ∧ r ∉ deletesUnderWay s := by
  have mark : (slotOf s r).deletePending = false := by rw [hd.undefined he]; rfl
  exact ⟨mark, fun hm => by simpa [mark] using (h.marks.mark r).mpr hm⟩

theorem ClaimsOk.free (he : ∀ r, (slotOf s r).entry = none) (r : RecNo) : lockOf s r = Lock.free := (h.rights r).1 (he r)

include hd

/-- FORMAT: no slot was defined, so no record is claimed and no DELETE is queued. -/
theorem completeFormat_claims (he : s.engine.entry = some ⟨p, .layout .format⟩) :
    ClaimsOk (completeLayout ⟨p, .layout .format⟩ .format c g s) := by
  have blank := hd.formatEmpty he
  have spares := completeLayout_spares ⟨p, .layout .format⟩ .format c g s
  have loosens := completeLayout_loosens ⟨p, .layout .format⟩ .format c g s
  have slots : ∀ r, slotOf (layoutChanged .format (setLayout (some ⟨c, g⟩) s)) r = Slot.undefined :=
    fun r => Table.get_fill _ _
  refine .of_none (fun r => ?_) (fun r => by rw [spares.mark, slots]; rfl) ?_
  · rw [(loosens.locks r).free (h.free blank r)]
    exact rightsAt_free _
  · rw [completeLayout_deletes, List.eq_nil_iff_forall_not_mem]
    intro r hr
    refine (h.not_deleted hd (blank r)).2 ?_
    rw [deletesUnderWay_of_entry he]
    exact List.mem_append_right _ hr

/-- DEFINE: the slot was undefined, its lock free. -/
theorem completeDefine_claims {r : RecNo} {e : LayoutEntry} (he : s.engine.entry = some ⟨p, .layout (.define r e)⟩) :
    ClaimsOk (completeLayout ⟨p, .layout (.define r e)⟩ (.define r e) c g s) := by
  obtain ⟨undefined, -⟩ := hd.defineLink he
  have spares := completeLayout_spares ⟨p, .layout (.define r e)⟩ (.define r e) c g s
  have loosens := completeLayout_loosens ⟨p, .layout (.define r e)⟩ (.define r e) c g s
  refine h.of_marks (fun q => ?_) (fun q => ?_) ?_ fun _ _ => loosens.unclaimed
  · by_cases hq : r = q
    · subst hq
      rw [(loosens.locks r).free ((h.rights r).1 undefined)]
      exact rightsAt_free _
    · refine RightsAt.eased (h.rights q) ?_ (loosens.locks q)
      rw [spares.entry, layoutChanged, slotOf_setSlot_ne _ _ _ _ hq]
      rfl
  · rw [spares.mark, layoutChanged, slotOf_setSlot]
    split
    · subst_vars
      exact (h.not_deleted hd undefined).1.symm
    · rfl
  · rw [deletesUnderWay_of_entry he, completeLayout_deletes]
    exact .refl _

omit hd

include hl in
/-- DELETE: the record is unclaimed, and its mark goes with its slot. -/
theorem completeDelete_claims {r : RecNo} (he : s.engine.entry = some ⟨p, .layout (.delete r)⟩) :
    ClaimsOk (completeLayout ⟨p, .layout (.delete r)⟩ (.delete r) c g s) := by
  have deletes := deletesUnderWay_of_entry he
  have marked : (slotOf s r).deletePending = true := (h.marks.mark r).mpr (by rw [deletes]; exact List.mem_cons_self)
  have free : lockOf s r = Lock.free := (lockOk_of_none (h.unclaimed r marked).holder).mp (hl.1 r)
  have spares := completeLayout_spares ⟨p, .layout (.delete r)⟩ (.delete r) c g s
  have loosens := completeLayout_loosens ⟨p, .layout (.delete r)⟩ (.delete r) c g s
  refine h.of_unmarked (r := r) (fun q => ?_) loosens (fun q => ?_) ?_
  · by_cases hq : r = q
    · subst hq
      rw [(loosens.locks r).free free]
      exact rightsAt_free _
    · refine RightsAt.eased (h.rights q) ?_ (loosens.locks q)
      rw [spares.entry, layoutChanged, slotOf_setSlot_ne _ _ _ _ hq]
      rfl
  · simp only [spares.mark, layoutChanged, slotOf_setSlot, eq_comm (a := r)]
    split <;> rfl
  · rw [deletes, completeLayout_deletes]
    exact .refl _

/-- SET ACCESS: the new write set is applied to the record's lock. -/
theorem completeSetAccess_claims {r : RecNo} {rs ws : PortSet} {gd : Bool}
    (he : s.engine.entry = some ⟨p, .layout (.setAccess r rs ws gd)⟩) :
    ClaimsOk (completeLayout ⟨p, .layout (.setAccess r rs ws gd)⟩ (.setAccess r rs ws gd) c g s) := by
  have spares := completeLayout_spares ⟨p, .layout (.setAccess r rs ws gd)⟩ (.setAccess r rs ws gd) c g s
  have loosens := completeLayout_loosens ⟨p, .layout (.setAccess r rs ws gd)⟩ (.setAccess r rs ws gd) c g s
  have lock := lockOf_completeSetAccess ⟨p, .layout (.setAccess r rs ws gd)⟩ r rs ws gd c g s
  refine h.of_marks (fun q => ?_) (fun q => ?_) ?_ fun _ _ => loosens.unclaimed
  · by_cases hq : r = q
    · subst hq
      have entry := spares.entry r
      rw [layoutChanged, slotOf_setSlot_self] at entry
      refine ⟨fun hn => (loosens.locks r).free ((h.rights r).1 ?_), fun e hs => ?_⟩
      · exact Option.map_eq_none_iff.mp (entry.symm.trans hn)
      · obtain ⟨e₀, -, rfl⟩ := Option.map_eq_some_iff.mp (entry.symm.trans hs)
        rw [lock]
        exact withinWriteSet_rights ws _
    · refine RightsAt.eased (h.rights q) ?_ (loosens.locks q)
      rw [spares.entry, layoutChanged, slotOf_setSlot_ne _ _ _ _ hq]
      rfl
  · rw [spares.mark, layoutChanged, slotOf_setSlot]
    split
    · subst_vars; rfl
    · rfl
  · rw [deletesUnderWay_of_entry he, completeLayout_deletes]
    exact .refl _

include hl hd in
theorem completeLayout_claims {op : LayoutOp} (he : s.engine.entry = some ⟨p, .layout op⟩) :
    ClaimsOk (completeLayout ⟨p, .layout op⟩ op c g s) := by
  cases op with
  | format => exact completeFormat_claims h hd p c g he
  | define r e => exact completeDefine_claims h hd p c g he
  | delete r => exact completeDelete_claims h hl p c g he
  | setAccess r rs ws gd => exact completeSetAccess_claims h p c g he

end LayoutCompleted

end Sys2Proof.Machine

namespace Sys2Proof.Machine

open Sys2Proof

/-! ## What a command has to keep -/

/-- The lock table in any state; the claims where sessions, queue, reads and directory are in order. -/
structure Guards (s t : State) : Prop where
  locks : LocksOk s → LocksOk t
  claims : LocksOk s → SessionsOk s → DirectoryInv s → ClaimsOk s → ClaimsOk t

theorem Mild.guards {s t : State} (x : Mild s t) : Guards s t := ⟨x.toLoosens.locksOk, fun _ _ _ h => x.claims h⟩

theorem Only.guards {h : Homes} {s t : State} (x : Only h s t) (hh : h.le mildHomes = true) : Guards s t :=
  (x.mild hh).guards

theorem Guards.refl (s : State) : Guards s s := (Mild.refl s).guards

/-- Where nothing writes a lock. -/
theorem Guards.of_locks {h : Homes} {s t : State} (x : Only h s t) (hh : h.locks = false)
    (claims : SessionsOk s → DirectoryInv s → ClaimsOk s → ClaimsOk t) : Guards s t :=
  ⟨locksOk_of_eq (x.locks hh), fun _ hs hd h => claims hs hd h⟩

/-! ### The engine's attempts (R69, R70) -/

theorem completeEntry_guards {s : State} {e : Entry} (he : s.engine.entry = some e) : Guards s (completeEntry e s) := by
  obtain ⟨p, w⟩ := e
  unfold completeEntry
  split
  · cases w with
    | record r cond base =>
      exact .of_locks (completeRecord_only _ _ _ _ s) rfl fun _ _ h => h.completeRecord he rfl _ _ _
    | layout op =>
      exact ⟨(completeLayout_loosens _ op _ _ s).locksOk, fun hl _ hd h => completeLayout_claims h hl hd _ _ _ he⟩
  · exact .refl s

theorem stepPassed_guards {s : State} {e : Entry} (he : s.engine.entry = some e) (st : EngineStep) :
    Guards s (stepPassed e st s) := by
  unfold stepPassed
  split
  · exact (askStep_mild _ _ s).guards
  · exact completeEntry_guards he

theorem stepFailed_guards {s : State} {e : Entry} (he : s.engine.entry = some e) (st : EngineStep) :
    Guards s (stepFailed e st s) := by
  refine .of_locks (stepFailed_only e st s) rfl fun _ _ h => ?_
  have asks : ∀ st n, ClaimsOk (askStep st n s) := fun st n => (askStep_mild st n s).claims h
  have fails := h.failFault he
  unfold stepFailed stepExhausted
  repeat' split
  exacts [asks _ _, fails, asks _ _, fails, asks _ _, fails]

/-- A page is left, and what follows finds the sessions and the directory in order. -/
theorem leavePage_guards {pl : Plane} {page : Nat} {x : PageBytes} {s t : State}
    (h : Guards (leavePage pl page x s) t) : Guards s t := by
  have left := leavePage_mild pl page x s
  refine ⟨fun hl => h.locks (left.toLoosens.locksOk hl), fun hl hs hd hc => ?_⟩
  refine h.claims (left.toLoosens.locksOk hl) ((leavePage_calm pl page x s).keeps hs) ?_ (left.claims hc)
  exact hd.of_work (leavePage_steady pl page x s) (by rw [leavePage_engine]; exact .refl _)

theorem attempted_guards {s : State} {e : Entry} (he : s.engine.entry = some e) (st : EngineStep) (pl : Plane)
    (page : Nat) (x : PageBytes) (P : Prop) [Decidable P] :
    Guards s (if P then stepPassed e st (leavePage pl page x s) else stepFailed e st (leavePage pl page x s)) := by
  have entry : (leavePage pl page x s).engine.entry = some e := by rw [leavePage_engine, he]
  split
  · exact leavePage_guards (stepPassed_guards entry st)
  · exact leavePage_guards (stepFailed_guards entry st)

theorem execEraseAttemptDone_guards {raised : PageBytes} {s t : State} (h : execEraseAttemptDone raised s = .next t) :
    Guards s t := by
  unfold execEraseAttemptDone at h
  repeat' split at h
  all_goals first | contradiction | obtain rfl := Host.Outcome.next.inj h
  · exact attempted_guards ‹_› _ _ _ _ _
  · exact .refl s
  · exact .refl s

theorem execProgramAttemptDone_guards {cleared : PageBytes} {s t : State}
    (h : execProgramAttemptDone cleared s = .next t) : Guards s t := by
  unfold execProgramAttemptDone at h
  repeat' split at h
  all_goals first | contradiction | obtain rfl := Host.Outcome.next.inj h
  · exact attempted_guards ‹_› _ _ _ _ _
  · exact .refl s
  · exact .refl s

theorem execInvalidationStep_guards {cleared : PageBytes} {s t : State} (h : execInvalidationStep cleared s = .next t) :
    Guards s t := by
  unfold execInvalidationStep at h
  repeat' split at h
  all_goals first | contradiction | obtain rfl := Host.Outcome.next.inj h
  · refine leavePage_guards (.of_locks (failFault_only _ _) rfl fun _ _ hc => hc.failFault ?_)
    rwa [leavePage_engine]
  · exact .refl s
  · exact .refl s

/-! ### The start of an entry (R66) -/

/-- A session on a record is not IDLE (R39). -/
theorem BookOk.busy {s : State} (h : BookOk s) {p : Port} {r : RecNo} (hr : (s.sessions.get p).record = some r) :
    (s.sessions.get p).state ≠ .idle := fun hi => by
  obtain ⟨-, unbound, -⟩ := (h.booked p).of_idle hi
  simp [hr] at unbound

/-- A session goes to another state, on the record that it was on. -/
theorem BookOk.setState_mild {s : State} (h : BookOk s) (p : Port) (st : SessionState) :
    Mild s (setSession p { sessionOf s p with state := st } s) :=
  setSession_mild fun _ _ hr => ⟨h.busy hr, hr⟩

/-- The head entry leaves the queue for the engine, which had none. -/
theorem begun_mild {s : State} {e : Entry} {rest : List Entry} {E : Engine} (h : BookOk s) (hq : s.queue = e :: rest)
    (hi : s.engine.entry = none) (hE : E.entry = some e) :
    Mild s (setEngine E (setSession e.port { sessionOf s e.port with state := .programming } (setQueue rest s))) := by
  have session := h.setState_mild e.port .programming
  refine ⟨?_, ?_⟩
  · exact session.toSpares.trans ⟨⟨fun _ => .refl _, fun _ _ on => on, .refl _⟩, fun _ => rfl, fun _ => rfl⟩
  · rw [deletesUnderWay_of_entry hE, deletesUnderWay_of_none hi, hq, List.filterMap_cons]
    cases deletedRecord e <;> rfl

theorem takeStaged_mild (p : Port) (r : RecNo) (s : State) : Mild s (takeStaged p r s) := by
  have emptied : Mild s (setSession p { sessionOf s p with fill := 0, overrun := false, buffer := emptyBuffer } s) :=
    setSession_mild fun hs _ hr => ⟨hs, hr⟩
  refine emptied.trans ?_
  exact setEngine_mild rfl

theorem startEntry_claims {s : State} {e : Entry} {rest : List Entry} (hs : SessionsOk s) (h : ClaimsOk s)
    (hq : s.queue = e :: rest) (hi : s.engine.state = .idle) : ClaimsOk (startEntry e (setQueue rest s)) := by
  have begun : ClaimsOk (setEngine { Engine.reset with state := .check, entry := some e }
      (setSession e.port { sessionOf s e.port with state := .programming } (setQueue rest s))) :=
    (begun_mild hs.book hq (hs.book.rest hi) rfl).claims h
  obtain ⟨p, w⟩ := e
  cases w with
  | record r cond base =>
    have taken := (takeStaged_mild p r _).claims begun
    simp only [startEntry, startRecord]
    split
    · exact taken.failRecord rfl rfl _ _
    · exact taken.failRecord rfl rfl _ _
    · exact ((setEngine_mild (by rfl)).trans (askStep_mild _ _ _)).claims taken
  | layout op =>
    simp only [startEntry, startLayout]
    split
    · exact ((setEngine_mild (by rfl)).claims begun).failLayout rfl _
    · exact (((setEngine_mild (by rfl)).trans (setEngine_mild (by rfl))).trans (askStep_mild _ _ _)).claims begun

theorem execEngineStart_guards {s t : State} (h : execEngineStart s = .next t) : Guards s t := by
  obtain rfl := Host.Outcome.next.inj h
  split
  · rename_i allowed
    have idle : s.engine.state = .idle := by
      simp only [startAllowed, Bool.and_eq_true, decide_eq_true_eq] at allowed
      obtain ⟨⟨⟨idle, -⟩, -⟩, -⟩ := allowed
      exact idle
    split
    · rename_i e rest hq
      exact ⟨locksOk_of_eq (s := s) ((startEntry_only e _).locks rfl), fun _ hs _ hc => startEntry_claims hs hc hq idle⟩
    · exact .refl s
  · exact .refl s

/-! ### An entry leaves the queue (R52, R57, R61) -/

/-- Of a port's entries the queue has one. -/
theorem BookOk.queue_perm {s : State} (h : BookOk s) {e : Entry} (he : e ∈ s.queue) :
    s.queue.Perm (e :: s.queue.filter fun x => decide (x.port ≠ e.port)) := by
  obtain ⟨-, single, -⟩ := (h.booked e.port).of_entry (mem_entriesOf.mpr ⟨he, rfl⟩)
  have split := List.filter_append_perm (fun x : Entry => decide (x.port = e.port)) s.queue
  rw [show s.queue.filter (fun x => decide (x.port = e.port)) = [e] from single] at split
  simpa using split.symm

theorem deletesUnderWay_removed {s t : State} {e : Entry} (he : t.engine.entry = s.engine.entry)
    (hq : s.queue.Perm (e :: t.queue)) :
    (deletesUnderWay s).Perm ((deletedRecord e).toList ++ deletesUnderWay t) := by
  have moved : (s.engine.entry.toList ++ s.queue).Perm (e :: (s.engine.entry.toList ++ t.queue)) :=
    (hq.append_left _).trans List.perm_middle
  have mapped := moved.filterMap deletedRecord
  rw [List.filterMap_cons] at mapped
  rw [deletesUnderWay, deletesUnderWay, he]
  cases hd : deletedRecord e <;> simpa [hd] using mapped

theorem removeEntry_claims {s : State} (p : Port) (hb : BookOk s) (h : ClaimsOk s) : ClaimsOk (removeEntry p s) := by
  have only := removeEntry_only p s
  have engine : (removeEntry p s).engine.entry = s.engine.entry := by rw [only.engine rfl]
  have loosens : Loosens s (removeEntry p s) := only.loosens (by decide)
  cases found : s.queue.find? fun e => decide (e.port = p) with
  | none =>
    have removed : removeEntry p s = setQueue (s.queue.filter fun e => decide (e.port ≠ p)) s := by
      simp only [removeEntry, found]
    have all : s.queue.filter (fun e => decide (e.port ≠ p)) = s.queue :=
      List.filter_eq_self.mpr fun e he => by simpa using List.find?_eq_none.mp found e he
    rw [removed, all]
    exact Mild.claims (.refl s) h
  | some e =>
    have member := List.mem_of_find?_eq_some found
    obtain rfl : e.port = p := by simpa using List.find?_some found
    have deletes := deletesUnderWay_removed engine ((removeEntry_queue e.port s).symm ▸ hb.queue_perm member)
    have removed := removeEntry_of_find found
    cases hw : deletedRecord e with
    | none =>
      rw [hw] at deletes
      rw [undoEntry_of_not_delete (not_delete hw)] at removed
      have slots : ∀ q, slotOf (removeEntry e.port s) q = slotOf s q := fun q => by rw [removed]; rfl
      exact h.of_marks (fun q => RightsAt.eased (h.rights q) (by rw [slots]) (loosens.locks q)) (fun q => by rw [slots])
        deletes fun _ _ => loosens.unclaimed
    | some r =>
      rw [hw] at deletes
      rw [undoEntry_delete (deletedRecord_eq_some.mp hw)] at removed
      have slots : ∀ q, slotOf (removeEntry e.port s) q =
          if r = q then { slotOf s r with deletePending := false } else slotOf s q := fun q => by
        rw [removed, slotOf_setSlot]
        rfl
      refine h.of_unmarked (fun q => RightsAt.eased (h.rights q) ?_ (loosens.locks q)) loosens (fun q => ?_) deletes
      · rw [slots]
        split
        · subst_vars; rfl
        · rfl
      · simp only [slots, eq_comm (a := r)]
        split <;> rfl

/-! ### Port clear (R97, R110, R164) -/

theorem clearSession_claims {s : State} (p : Port) (hb : BookOk s) (h : ClaimsOk s) : ClaimsOk (clearSession p s) := by
  refine (setSession_reset_mild p _).claims ?_
  split
  · exact removeEntry_claims p hb h
  · exact h

theorem clearPort_guards (p : Port) (s : State) : Guards s (clearPort p s) := by
  have read : Mild s (clearRead p (clearTransport p s)) :=
    ((setPort_only p _ s).mild (by decide)).trans (clearRead_mild p _)
  have others : ∀ u, Mild u (clearNotices p (leaveWatchSets p (clearLocks p (setResult p none (detachEntry p u))))) :=
    fun u => ((((detachEntry_mild p u).trans ((setResult_only p none _).mild (by decide))).trans
      (clearLocks_mild p _)).trans (leaveWatchSets_mild p _)).trans ((clearNotices_only p _).mild (by decide))
  refine ⟨fun hl => (others _).toLoosens.locksOk ?_, fun _ hs _ h => (others _).claims ?_⟩
  · exact locksOk_of_eq ((clearSession_only p _).locks rfl) (read.toLoosens.locksOk hl)
  · exact clearSession_claims p (clearRead_calm p s |>.keeps hs).book (read.claims h)

/-! ### Mount (R147, R150) -/

theorem endMount_mild (d : DeviceState) (s : State) : Mild s (endMount d s) := (endMount_only d s).mild (by decide)

theorem mountOn_mild (r : RecNo) (s : State) : Mild s (mountOn r s) := by
  unfold mountOn
  split
  · exact (setMount_only _ s).mild (by decide)
  · exact endMount_mild _ s

/-- Before a layout is selected no record is claimed, and no entry is under way. -/
theorem mounted_guards {s : State} (hm : s.mount = .layout) (v : LayoutVersion)
    (entries : Table 128 (Option LayoutEntry)) : Guards s (mounted s v entries) := by
  refine .of_locks (h := { dir := true }) (.ofEq rfl) rfl fun _ hd h => ?_
  have mounting := hd.mounting_of_mount (by simp [hm])
  obtain ⟨-, blank⟩ := hd.blank (.inl ⟨mounting, .inr hm⟩)
  obtain ⟨entry, queue⟩ := hd.no_work mounting
  refine .of_none (fun r => ?_) (fun r => by rw [slotOf_mounted]; rfl) ?_
  · rw [show lockOf (mounted s v entries) r = Lock.free from h.free blank r]
    exact rightsAt_free _
  · rw [deletesUnderWay_of_none (s := mounted s v entries) entry,
      show (mounted s v entries).queue = [] from queue]
    rfl

theorem Guards.mild {s t u : State} (x : Guards s t) (y : Mild t u) : Guards s u :=
  ⟨fun h => y.toLoosens.locksOk (x.locks h), fun hl hs hd h => y.claims (x.claims hl hs hd h)⟩

theorem execMountLayoutSelected_guards {s t : State} (h : execMountLayoutSelected s = .next t) : Guards s t := by
  obtain rfl := Host.Outcome.next.inj h
  split
  · rename_i hm
    split
    · exact (endMount_mild _ s).guards
    · exact (endMount_mild _ s).guards
    · rename_i v entries _
      refine (mounted_guards hm v entries).mild ?_
      dsimp only
      split
      · exact (setMount_only _ _).mild (by decide)
      · exact endMount_mild _ _
  · exact .refl s

theorem execMountSlotSet_guards {s t : State} (h : execMountSlotSet s = .next t) : Guards s t := by
  unfold execMountSlotSet at h
  repeat' split at h
  all_goals first | contradiction | obtain rfl := Host.Outcome.next.inj h
  · exact (Mild.trans (setSlot_mild (by rfl) (by rfl)) (mountOn_mild _ _)).guards
  · exact .refl s
  · exact (endMount_mild _ s).guards
  · exact .refl s

theorem execMountStart_guards {s t : State} (h : execMountStart s = .next t) : Guards s t := by
  obtain rfl := Host.Outcome.next.inj h
  split
  · exact Only.guards (h := { arbiters := true, rc := true, mount := true }) (.ofEq rfl) (by decide)
  · exact .refl s

/-! ### Resets (R142) -/

theorem deviceReset_guards (src : ResetSource) (cut : PageBytes) (s : State) : Guards s (deviceReset src cut s) := by
  obtain ⟨-, -, -, locks, -, -, -, -, -, -, -, -, -, rights, pending, -⟩ := resetHoldsTheInvariants
  have same : Mild State.reset (deviceReset src cut s) :=
    ⟨.of_slots rfl rfl rfl (fun _ => rfl) fun _ => rfl, rfl⟩
  exact ⟨fun _ => same.toLoosens.locksOk locks, fun _ _ _ _ => same.claims ((claimsOk_iff _).mpr ⟨rights, pending⟩)⟩

end Sys2Proof.Machine

namespace Sys2Proof.Machine

open Sys2Proof

/-! ## Requests -/

/-- The service of an accepted request keeps the lock table, and the claims. -/
structure Served (p : Port) (u v : State) : Prop where
  locks : LocksOk u → LocksOk v
  claims : Accepted u p → ClaimsOk u → ClaimsOk v

theorem Mild.served {p : Port} {u v : State} (x : Mild u v) : Served p u v := ⟨x.toLoosens.locksOk, fun _ h => x.claims h⟩

theorem Served.mild {p : Port} {u v w : State} (x : Served p u v) (y : Mild v w) : Served p u w :=
  ⟨fun h => y.toLoosens.locksOk (x.locks h), fun a h => y.claims (x.claims a h)⟩

/-- Where nothing writes a lock. -/
theorem Served.of_locks {h : Homes} {p : Port} {u v : State} (x : Only h u v) (hh : h.locks = false)
    (claims : Accepted u p → ClaimsOk u → ClaimsOk v) : Served p u v := ⟨locksOk_of_eq (x.locks hh), claims⟩

theorem refuse_served (p : Port) (u : State) (c : ResultCode) : Served p u (refuse p c u) := (refuse_mild p c u).served

theorem respond_served (p : Port) (c : ResultCode) (b : List Byte) (u : State) : Served p u (respond p c b u) :=
  (respond_mild p c b u).served

/-- A body that spells parameters. -/
theorem withBody_spelled {P : State → Prop} {p : Port} {s : State} (refused : ∀ c, P (refuse p c s)) {α : Type}
    {operand : Option α} {serve : α → State → State} (h : ∀ a, operand = some a → P (serve a s)) :
    P (withBody p operand serve s) := by
  unfold withBody
  split
  · exact h _ rfl
  · exact refused _

/-! ### OPEN (R42 to R45) -/

/-- A session begins on a record that is not delete pending. -/
theorem beginStaging_claims {s : State} (h : ClaimsOk s) (p : Port) {r : RecNo}
    (hr : (slotOf s r).deletePending = false) (g : Gen) (data : List Byte) : ClaimsOk (beginStaging p r g data s) := by
  refine h.of_marks h.rights (fun _ => rfl) (.refl _) fun q hq x => ⟨x.holder, x.waits, fun p' => ?_, x.opens⟩
  rw [← Bool.not_eq_true, sessionOn_iff]
  rintro ⟨busy, on⟩
  simp only [beginStaging, setSession_sessions, PerPort.get_set] at busy on
  split at on
  · simp [← Option.some.inj on, hr] at hq
  · rw [if_neg ‹_›] at busy
    simpa [x.sessions p'] using (sessionOn_iff s q p').mpr ⟨busy, on⟩

/-- So does an OPEN in COPY mode. -/
theorem startOpen_claims {s : State} (h : ClaimsOk s) (p : Port) {r : RecNo}
    (hr : (slotOf s r).deletePending = false) (e : LayoutEntry) (c : Plane) :
    ClaimsOk (startRead p .openCopy r e c s) := by
  refine (joinRead_mild c p _).claims ?_
  refine h.of_marks h.rights (fun _ => rfl) (.refl _) fun q hq x => ⟨x.holder, x.waits, x.sessions, fun p' rd hrd on => ?_⟩
  rw [setRead_reads, PerPort.get_set] at hrd
  split at hrd
  · obtain rfl := Option.some.inj hrd
    obtain rfl : r = q := on
    simp [hr] at hq
  · exact x.opens p' rd hrd on

theorem serveOpenRecord_served (p : Port) (body : List Byte) (u : State) : Served p u (serveOpenRecord p body u) := by
  have no := refuse_served p u
  refine whenReady_cases no fun _ => whenSession_cases no <| withBody_cases no fun (r, m) =>
    withRecord_cases no fun e _ => refuseIf_cases no fun _ => refuseIf_cases no fun hr => ?_
  cases m with
  | blank =>
    refine Served.mild ?_ (respond_mild p _ _ _)
    exact .of_locks (setSession_only p _ u) rfl fun _ h => beginStaging_claims h p hr _ _
  | copy =>
    exact withContent_cases no fun c => .of_locks (startRead_only p _ r e c u) rfl fun _ h => startOpen_claims h p hr e c

/-! ### LOCK and UNLOCK (R85, R86, R89) -/

/-- One lock is replaced, and a port that now waits on it waited there or nowhere. -/
theorem locksOk_setLock {s : State} (h : LocksOk s) {r : RecNo} {l : Lock} (hl : LockOk l)
    (hw : ∀ q, waitsOn l q = true → waitsOn (lockOf s r) q = true ∨ waitsAnywhere s q = false) :
    LocksOk (setLock r l s) := by
  obtain ⟨each, once⟩ := h
  have elsewhere : ∀ q r', waitsOn l q = true → waitsOn (lockOf s r') q = true → r = r' := fun q r' hq hr' => by
    rcases hw q hq with here | nowhere
    · exact once r r' q here hr'
    · simp [(waitsAnywhere_iff s q).mpr ⟨r', hr'⟩] at nowhere
  refine ⟨fun q => ?_, fun q q' p hp hp' => ?_⟩
  · rw [lockOf_setLock]
    split
    · exact hl
    · exact each q
  · rw [lockOf_setLock] at hp hp'
    split at hp <;> split at hp'
    · exact ‹r = q›.symm.trans ‹r = q'›
    · exact ‹r = q›.symm.trans (elsewhere p q' hp hp')
    · exact (elsewhere p q hp' hp).symm.trans ‹r = q'›
    · exact once q q' p hp hp'

/-- The lock of a record that is not delete pending, where whoever holds it or waits did so before or may write. -/
theorem setLock_claims {s : State} (h : ClaimsOk s) {r : RecNo} {e : LayoutEntry} {l : Lock}
    (he : (slotOf s r).entry = some e) (hr : (slotOf s r).deletePending = false)
    (hh : ∀ q, l.holder = some q → (lockOf s r).holder = some q ∨ e.writeSet.get q = true)
    (hw : ∀ w ∈ l.waits, w ∈ (lockOf s r).waits ∨ e.writeSet.get w.port = true) : ClaimsOk (setLock r l s) := by
  refine h.of_marks (fun q => ?_) (fun _ => rfl) (.refl _) fun q hq x => ?_
  · rw [lockOf_setLock]
    by_cases hq : r = q
    · subst hq
      rw [if_pos rfl]
      refine ⟨fun hn => by rw [show (slotOf s r).entry = none from hn] at he; contradiction, fun e' he' => ?_⟩
      obtain rfl : e = e' := Option.some.inj (he.symm.trans he')
      obtain ⟨holds, waits⟩ := (h.rights r).2 e he
      exact ⟨fun q hq => (hh q hq).elim (holds q) id, fun w hm => (hw w hm).elim (waits w) id⟩
    · rw [if_neg hq]
      exact h.rights q
  · have other : r ≠ q := fun hrq => by simp [← hrq, hr] at hq
    exact ⟨by rw [lockOf_setLock_ne _ _ _ _ other]; exact x.holder, by rw [lockOf_setLock_ne _ _ _ _ other]; exact x.waits,
      x.sessions, x.opens⟩

theorem lockBody_bounds {body : List Byte} {r : RecNo} {lease wait : Nat} (h : lockBody body = some (r, lease, wait)) :
    1 ≤ lease ∧ lease ≤ 255 ∧ wait ≤ 255 := by
  unfold lockBody at h
  split at h
  · rename_i rb l w
    split at h
    · contradiction
    · rename_i hl
      obtain ⟨r', -, hr⟩ := Option.map_eq_some_iff.mp h
      obtain ⟨-, rfl, rfl⟩ : r' = r ∧ l.toNat = lease ∧ w.toNat = wait := by simpa using hr
      have positive : l.toNat ≠ 0 := fun h0 => hl (BitVec.eq_of_toNat_eq h0)
      have least := l.isLt
      have most := w.isLt
      omega
  · contradiction

section LockRecord

variable {p : Port} {r : RecNo} {u : State} (lease wait : Nat)

theorem lockRecord_unheld (h : (lockOf u r).holder = none) :
    lockRecord p r lease wait u =
      respond p .ok [recByte r, natByte lease, 0] (setLock r (grantedTo p lease (lockOf u r).waits) u) := by
  simp only [lockRecord, h]

theorem lockRecord_own (h : (lockOf u r).holder = some p) :
    lockRecord p r lease wait u =
      respond p .ok [recByte r, natByte lease, 1] (setLock r { lockOf u r with lease := lease, leaseDue := false } u) := by
  simp only [lockRecord, h, if_true]

theorem lockRecord_held {q : Port} (h : (lockOf u r).holder = some q) (hq : q ≠ p) :
    lockRecord p r lease wait u =
      if wait = 0 then respond p .locked [portByte q] u
      else if waitsAnywhere u p then refuse p .state u
      else respond p .waiting [portByte q, natByte ((lockOf u r).waits.length + 1)]
        (setLock r { lockOf u r with waits := (lockOf u r).waits ++ [⟨p, wait, lease, false⟩] } u) := by
  simp only [lockRecord, h, if_neg hq]

end LockRecord

section LockTaken

variable {p : Port} {u : State} {r : RecNo} {e : LayoutEntry} {lease wait : Nat} (he : (slotOf u r).entry = some e)
  (hr : (slotOf u r).deletePending = false) (hl : 1 ≤ lease ∧ lease ≤ 255)

include he hr hl

theorem lockGranted_served (hp : e.writeSet.get p = true) (free : (lockOf u r).holder = none) :
    Served p u (setLock r (grantedTo p lease (lockOf u r).waits) u) := by
  obtain ⟨least, most⟩ := hl
  refine ⟨fun h => locksOk_setLock h ?_ fun q hq => .inl hq, fun _ h => ?_⟩
  · rw [(lockOk_of_none free).mp (h.1 r)]
    exact (lockOk_of_held rfl).mpr ⟨least, most, by simp [WaitsOk, grantedTo, Lock.free]⟩
  · exact setLock_claims h he hr (fun q hq => .inr (Option.some.inj hq ▸ hp)) fun w hw => .inl hw

theorem lockRenewed_served {h : Port} (held : (lockOf u r).holder = some h) :
    Served p u (setLock r { lockOf u r with lease := lease, leaseDue := false } u) := by
  obtain ⟨least, most⟩ := hl
  refine ⟨fun hl => locksOk_setLock hl ?_ fun q hq => .inl hq, fun _ hc => ?_⟩
  · obtain ⟨-, -, waiters⟩ := (lockOk_of_held held).mp (hl.1 r)
    exact (lockOk_of_held (l := { lockOf u r with lease := lease, leaseDue := false }) held).mpr ⟨least, most, waiters⟩
  · exact setLock_claims hc he hr (fun q hq => .inl hq) fun w hw => .inl hw

/-- A port that waits nowhere joins a lock's wait list (R86, R87). -/
theorem lockJoined_served (hp : e.writeSet.get p = true) {h : Port} (held : (lockOf u r).holder = some h) (other : h ≠ p)
    (hw : 1 ≤ wait ∧ wait ≤ 255) (nowhere : ¬waitsAnywhere u p = true) :
    Served p u (setLock r { lockOf u r with waits := (lockOf u r).waits ++ [⟨p, wait, lease, false⟩] } u) := by
  obtain ⟨least, most⟩ := hl
  obtain ⟨wleast, wmost⟩ := hw
  have absent : p ∉ (lockOf u r).waits.map Wait.port := fun hm =>
    nowhere ((waitsAnywhere_iff u p).mpr ⟨r, (waitsOn_iff_mem _ _).mpr hm⟩)
  refine ⟨fun hl => locksOk_setLock hl ?_ fun q hq => ?_, fun _ hc => ?_⟩
  · obtain ⟨lleast, lmost, waiters⟩ := (lockOk_of_held held).mp (hl.1 r)
    have joined := waiters.join (w := ⟨p, wait, lease, false⟩) absent ⟨other.symm, wleast, wmost, least, most⟩
    exact (lockOk_of_held (l := { lockOf u r with waits := (lockOf u r).waits ++ [⟨p, wait, lease, false⟩] }) held).mpr
      ⟨lleast, lmost, joined⟩
  · rw [waitsOn_iff_mem, List.map_append, List.mem_append] at hq
    rcases hq with hq | hq
    · exact .inl ((waitsOn_iff_mem _ _).mpr hq)
    · obtain rfl : q = p := List.mem_singleton.mp hq
      exact .inr (Bool.not_eq_true _ ▸ nowhere)
  · refine setLock_claims hc he hr (fun q hq => .inl hq) fun w hw => ?_
    rcases List.mem_append.mp hw with hw | hw
    · exact .inl hw
    · exact .inr (by rw [List.mem_singleton.mp hw]; exact hp)

/-- What LOCK makes of a lock, with the port's claim its only new one (R86). -/
theorem lockRecord_served (hp : e.writeSet.get p = true) (hw : wait ≤ 255) :
    Served p u (lockRecord p r lease wait u) := by
  cases held : (lockOf u r).holder with
  | none =>
    rw [lockRecord_unheld _ _ held]
    exact (lockGranted_served he hr hl hp held).mild (respond_mild p _ _ _)
  | some h =>
    by_cases own : h = p
    · rw [lockRecord_own _ _ (own ▸ held)]
      exact (lockRenewed_served he hr hl held).mild (respond_mild p _ _ _)
    · rw [lockRecord_held _ _ held own]
      repeat' split
      · exact respond_served p _ _ u
      · exact refuse_served p u _
      · rename_i waits nowhere
        have joined := lockJoined_served he hr hl hp held own ⟨Nat.pos_of_ne_zero waits, hw⟩ nowhere
        exact joined.mild (respond_mild p _ _ _)

end LockTaken

theorem serveLock_served (p : Port) (body : List Byte) (u : State) : Served p u (serveLock p body u) := by
  have no := refuse_served p u
  refine whenReady_cases no fun _ => withBody_spelled no fun (r, lease, wait) hb => withRecord_cases no fun e he =>
    refuseIf_cases no fun hw => refuseIf_cases no fun hr => ?_
  obtain ⟨least, most, wmost⟩ := lockBody_bounds hb
  exact lockRecord_served he hr ⟨least, most⟩ (by simpa using hw) wmost

theorem serveUnlock_served (p : Port) (body : List Byte) (u : State) : Served p u (serveUnlock p body u) := by
  have no := refuse_served p u
  refine whenReady_cases no fun _ => withBody_cases no fun r => withRecord_cases no fun _ _ => ?_
  simp only [unlockRecord]
  repeat' split
  · exact ((handOn_mild r u).trans (respond_mild p _ _ _)).served
  · exact ((setLock_mild (eases_leaveWaits p _)).trans (respond_mild p _ _ _)).served
  · exact no _

/-! ### Entries that join the queue (R58, R59, R132) -/

theorem enqueue_spares {u : State} (hb : BookOk u) (p : Port) (w : Work) : Spares u (enqueue p w u) := by
  refine Spares.trans ?_ (respond_mild p _ _ _).toSpares
  exact (hb.setState_mild p .queued).toSpares.trans
    ⟨⟨fun _ => .refl _, fun _ _ on => on, .refl _⟩, fun _ => rfl, fun _ => rfl⟩

theorem enqueue_deletes (p : Port) (w : Work) (u : State) :
    deletesUnderWay (enqueue p w u) = deletesUnderWay u ++ (deletedRecord ⟨p, w⟩).toList := by
  have only := respond_only p .queued [] (setSession p { sessionOf u p with state := .queued }
    (setQueue (u.queue ++ [⟨p, w⟩]) u))
  rw [enqueue, deletesUnderWay, only.engine rfl, only.queue rfl, deletesUnderWay]
  simp only [setSession_engine, setQueue_engine, setSession_queue, setQueue_queue, ← List.append_assoc,
    List.filterMap_append, List.filterMap_cons, List.filterMap_nil]
  cases deletedRecord ⟨p, w⟩ <;> rfl

theorem enqueue_served {p : Port} {w : Work} (hw : deletedRecord ⟨p, w⟩ = none) (u : State) :
    Served p u (enqueue p w u) :=
  .of_locks (enqueue_only p w u) rfl fun a h =>
    Mild.claims ⟨enqueue_spares a.ok.book p w, by rw [enqueue_deletes, hw]; exact List.append_nil _⟩ h

theorem serveCommit_served (p : Port) (body : List Byte) (u : State) : Served p u (serveCommit p body u) := by
  have no := refuse_served p u
  refine whenReady_cases no fun _ => whenSession_cases no <| withBody_cases no fun c => refuseIf_cases no fun _ =>
    refuseIf_cases no fun _ => refuseIf_cases no fun _ => ?_
  unfold acceptCommit
  split
  · exact enqueue_served rfl u
  · exact no _

theorem serveFormat_served (p : Port) (body : List Byte) (u : State) : Served p u (serveFormat p body u) := by
  have no := refuse_served p u
  exact serveLayout_cases no fun _ _ => refuseIf_cases no fun _ => acceptLayout_cases no (enqueue_served rfl u)

theorem serveDefine_served (p : Port) (body : List Byte) (u : State) : Served p u (serveDefine p body u) := by
  have no := refuse_served p u
  exact serveLayout_cases no fun _ _ => refuseIf_cases no fun _ => refuseIf_cases no fun _ => refuseIf_cases no fun _ =>
    acceptLayout_cases no (enqueue_served rfl u)

theorem serveSetAccess_served (p : Port) (body : List Byte) (u : State) : Served p u (serveSetAccess p body u) := by
  have no := refuse_served p u
  exact serveLayout_cases no fun _ _ => withRecord_cases no fun _ _ => acceptLayout_cases no (enqueue_served rfl u)

/-! ### DELETE (R45, R132) -/

/-- Nobody has a claim to a record that is not in use, but for OPENs in progress. -/
theorem recordInUse_false {s : State} {r : RecNo} (h : recordInUse s r = false) :
    (slotOf s r).deletePending = false ∧ (∀ p, sessionOn s r p = false) ∧ (lockOf s r).holder = none ∧
      (lockOf s r).waits = [] := by
  simp only [recordInUse, Bool.or_eq_false_iff, Bool.not_eq_false', Option.isSome_eq_false_iff, Option.isNone_iff_eq_none,
    List.isEmpty_iff] at h
  obtain ⟨⟨⟨⟨⟨⟨mark, a⟩, b⟩, c⟩, d⟩, holder⟩, waits⟩ := h
  exact ⟨mark, fun p => by cases p <;> assumption, holder, waits⟩

theorem refusedOpen_refused {r : RecNo} {o : Option Read} {rd : Read} (h : refusedOpen r o = some rd) (hr : rd.record = r)
    (hk : rd.kind = .openCopy) : rd.phase = .reading ∧ rd.inUse = true := by
  unfold refusedOpen at h
  repeat' split at h
  · contradiction
  · rename_i reading
    obtain rfl := Option.some.inj h
    exact ⟨reading, rfl⟩
  · rename_i other
    obtain rfl := Option.some.inj h
    exact absurd ⟨hr, hk⟩ other
  · contradiction

theorem markDeleted_reads (r : RecNo) (s : State) (q : Port) :
    (markDeleted r s).reads.get q = refusedOpen r (s.reads.get q) :=
  forPorts_view (fun s q => s.reads.get q) (refuseOpen r) (fun _ => refusedOpen r)
    (fun p s q => by rw [refuseOpen_reads, PerPort.get_set]) _ q

theorem markDeleted_mild (r : RecNo) (s : State) :
    Mild (setSlot r { slotOf s r with deletePending := true } s) (markDeleted r s) :=
  Mild.forPorts (refuseOpen_mild r) _

/-- The acceptance of a DELETE: its entry joins the queue and its record, which nobody claims, is marked. -/
theorem deleteAccepted_claims {u : State} (hb : BookOk u) (h : ClaimsOk u) (p : Port) {r : RecNo}
    (hr : recordInUse u r = false) : ClaimsOk (markDeleted r (enqueue p (.layout (.delete r)) u)) := by
  obtain ⟨unmarked, sessions, holder, waits⟩ := recordInUse_false hr
  have queued := enqueue_spares hb p (.layout (.delete r))
  have marked := markDeleted_mild r (enqueue p (.layout (.delete r)) u)
  have loosens : Loosens u (markDeleted r (enqueue p (.layout (.delete r)) u)) :=
    (queued.toLoosens.trans ((setSlot_only r _ _).loosens (by decide))).trans marked.toLoosens
  have deletes : deletesUnderWay (markDeleted r (enqueue p (.layout (.delete r)) u)) = deletesUnderWay u ++ [r] :=
    marked.deletes.trans (enqueue_deletes p (.layout (.delete r)) u)
  have mark : ∀ q, (slotOf (markDeleted r (enqueue p (.layout (.delete r)) u)) q).deletePending =
      if r = q then true else (slotOf u q).deletePending := fun q => by
    rw [marked.mark, slotOf_setSlot]
    split
    · rfl
    · exact queued.mark q
  have new : r ∉ deletesUnderWay u := fun hm => by simpa [unmarked] using (h.marks.mark r).mpr hm
  refine ⟨fun q => RightsAt.eased (h.rights q) ?_ (loosens.locks q), ⟨?_, fun q => ?_⟩, fun q hq => ?_⟩
  · rw [marked.entry, slotOf_setSlot]
    split
    · subst_vars; exact queued.entry _
    · exact queued.entry q
  · rw [deletes]
    exact h.marks.nodup.append (List.nodup_singleton r) (by simpa using new)
  · rw [mark, deletes, List.mem_append, List.mem_singleton]
    split
    · simp [*]
    · simp [h.marks.mark q, ne_comm.mp ‹_›]
  · rw [mark] at hq
    by_cases hrq : r = q
    · subst hrq
      obtain ⟨holder', waits'⟩ := (loosens.locks r).unheld holder waits
      refine ⟨holder', waits', fun q => ?_, fun q rd hrd => ?_⟩
      · rw [← Bool.not_eq_true]
        exact fun on => by simpa [sessions q] using loosens.sessions r q on
      · rw [markDeleted_reads] at hrd
        exact refusedOpen_refused hrd
    · rw [if_neg hrq] at hq
      exact loosens.unclaimed (h.unclaimed q hq)

theorem serveDelete_served (p : Port) (body : List Byte) (u : State) : Served p u (serveDelete p body u) := by
  have no := refuse_served p u
  refine serveLayout_cases no fun _ r => withRecord_cases no fun _ _ => refuseIf_cases no fun hr => acceptLayout_cases no ?_
  refine ⟨fun hl => ?_, fun a h => deleteAccepted_claims a.ok.book h p hr⟩
  refine (markDeleted_mild r _).toLoosens.locksOk (locksOk_of_eq ?_ hl)
  exact (enqueue_only p _ u).locks rfl

/-! ### The other requests -/

theorem serveNop_served (p : Port) (body : List Byte) (u : State) : Served p u (serveNop p body u) :=
  whenReady_cases (refuse_served p u) fun _ => respond_served _ _ _ _

theorem serveQueryRecord_served (p : Port) (body : List Byte) (u : State) : Served p u (serveQueryRecord p body u) := by
  have no := refuse_served p u
  exact whenReady_cases no fun _ => withBody_cases no fun _ => respond_served _ _ _ _

theorem serveDeviceStatus_served (p : Port) (body : List Byte) (u : State) : Served p u (serveDeviceStatus p body u) :=
  withBody_cases (refuse_served p u) fun _ => respond_served _ _ _ _

theorem serveReadRecord_served (p : Port) (body : List Byte) (u : State) : Served p u (serveReadRecord p body u) := by
  have no := refuse_served p u
  refine whenReady_cases no fun _ => withBody_cases no fun _ => withRecord_cases no fun _ _ => refuseIf_cases no fun _ =>
    withContent_cases no fun c => refuseIf_cases no fun _ => Mild.served ?_
  exact (setRead_mild fun rd hrd => by simp [← Option.some.inj hrd]).trans (joinRead_mild c p _)

theorem storeStaged_mild (p : Port) (n o : Nat) (data : List Byte) (u : State) : Mild u (storeStaged p n o data u) := by
  simp only [storeStaged]
  refine Mild.trans (setSession_mild ?_) (respond_mild p _ _ _)
  exact fun hs _ hr => ⟨hs, hr⟩

theorem serveStage_served (p : Port) (body : List Byte) (u : State) : Served p u (serveStage p body u) := by
  have no := refuse_served p u
  refine whenReady_cases no fun _ => whenSession_cases no ?_
  repeat' split
  · exact (storeStaged_mild _ _ _ _ _).served
  · exact respond_served _ _ _ _
  · exact respond_served _ _ _ _

theorem serveAppend_served (p : Port) (body : List Byte) (u : State) : Served p u (serveAppend p body u) := by
  have no := refuse_served p u
  exact whenReady_cases no fun _ => whenSession_cases no <| withBody_cases no fun _ => (storeStaged_mild _ _ _ _ _).served

theorem serveAbandon_served (p : Port) (body : List Byte) (u : State) : Served p u (serveAbandon p body u) := by
  have no := refuse_served p u
  refine whenReady_cases no fun _ => withBody_cases no fun _ => ?_
  have reset := fun v => (setSession_reset_mild p v).trans (respond_mild p .ok [] _)
  split
  · exact respond_served _ _ _ _
  · exact (reset u).served
  · refine Served.mild ?_ (reset _)
    exact .of_locks (removeEntry_only p u) rfl fun a h => removeEntry_claims p a.ok.book h
  · exact no _

theorem serveFetchCommitResult_served (p : Port) (body : List Byte) (u : State) :
    Served p u (serveFetchCommitResult p body u) := by
  have no := refuse_served p u
  refine whenReady_cases no fun _ => withBody_cases no fun _ => ?_
  split
  · exact respond_served _ _ _ _
  · exact no _

theorem serveFetchLockReport_served (p : Port) (body : List Byte) (u : State) :
    Served p u (serveFetchLockReport p body u) := by
  have no := refuse_served p u
  exact whenReady_cases no fun _ => withBody_cases no fun _ => respond_served _ _ _ _

theorem serveWatch_served (p : Port) (body : List Byte) (u : State) : Served p u (serveWatch p body u) := by
  have no := refuse_served p u
  refine whenReady_cases no fun _ => withBody_cases no fun r => withRecord_cases no fun _ _ => refuseIf_cases no fun _ => ?_
  have watched : Mild u (setSlot r { slotOf u r with watch := (slotOf u r).watch.set p true } u) := setSlot_mild rfl rfl
  exact (watched.trans (respond_mild p _ _ _)).served

theorem serveUnwatch_served (p : Port) (body : List Byte) (u : State) : Served p u (serveUnwatch p body u) := by
  have no := refuse_served p u
  exact whenReady_cases no fun _ => withBody_cases no fun _ => ((stopWatching_mild _ p u).trans (respond_mild p _ _ _)).served

theorem serveFetchNotice_served (p : Port) (body : List Byte) (u : State) : Served p u (serveFetchNotice p body u) := by
  have no := refuse_served p u
  refine whenReady_cases no fun _ => withBody_cases no fun _ => ?_
  split
  · exact no _
  · exact (((setNotices_only p _ u).mild (by decide)).trans (respond_mild p _ _ _)).served

theorem serveAcknowledge_served (p : Port) (body : List Byte) (u : State) : Served p u (serveAcknowledge p body u) :=
  withBody_cases (refuse_served p u) fun _ => (((setFlags_only p _ u).mild (by decide)).trans (respond_mild p _ _ _)).served

theorem serveSetAttentionMask_served (p : Port) (body : List Byte) (u : State) :
    Served p u (serveSetAttentionMask p body u) :=
  withBody_cases (refuse_served p u) fun _ => (((setMask_only p _ u).mild (by decide)).trans (respond_mild p _ _ _)).served

theorem serveRestart_served (p : Port) (body : List Byte) (u : State) : Served p u (serveRestart p body u) := by
  have no := refuse_served p u
  exact refuseIf_cases no fun _ => refuseIf_cases no fun _ => withBody_cases no fun _ =>
    (((setRc_only _ u).mild (by decide)).trans (respond_mild p _ _ _)).served

end Sys2Proof.Machine

namespace Sys2Proof.Machine

open Sys2Proof

/-! ## Frames -/

/-- What every part of a frame on a port keeps, until a request is accepted. -/
structure FrameKeeps (p : Port) (P : State → Prop) : Prop where
  fall : ∀ s, P s → P (fallFrame p s)
  clock : ∀ bytes extra s, P s → P (clockFrame p bytes extra s)
  ends : ∀ s, P s → P (endFrame p s)
  outcome : ∀ o s, P s → P (recordOutcome p o s)
  reply : ∀ s, P s → P (writeReply p s)

namespace FrameKeeps

variable {p : Port} {P : State → Prop}

theorem riseFrame (k : FrameKeeps p P) {s : State} (h : P s) (bytes : List Byte) (extra : Nat) {judge : State → State}
    (x : ∀ u, P u → P (judge u)) : P (Machine.riseFrame p bytes extra judge s) := by
  have ends := k.ends s h
  unfold Machine.riseFrame
  repeat' split
  exacts [ends, x _ ends, h, ends, h]

theorem takeFrame (k : FrameKeeps p P) {s : State} (h : P s) (bytes : List Byte) (extra : Nat) {judge : State → State}
    (part : FramePart) (x : ∀ u, P u → P (judge u)) : P (Machine.takeFrame p bytes extra judge part s) := by
  cases part with
  | whole => exact k.riseFrame (k.clock bytes extra _ (k.fall s h)) bytes extra x
  | fall => exact k.fall s h
  | clock => exact k.clock bytes extra s h
  | rise => exact k.riseFrame h bytes extra x
  | reply => exact h

theorem takeRequest (k : FrameKeeps p P) {s : State} (h : P s) (c : RequestCode) (tag : Byte) (body : List Byte)
    (part : FramePart) {serve : State → State}
    (x : ∀ u, (u.ports.get p).inProgress = none → P u → P (serve (acceptRequest p tag u))) :
    P (Machine.takeRequest c p tag body part serve s) := by
  have judged : ∀ u, P u → P (judgeRequest p tag body serve u) := fun u hu => by
    unfold judgeRequest
    repeat' split
    · exact k.outcome _ u hu
    · exact k.outcome _ u hu
    · rename_i hp
      exact x u (by simpa using hp) hu
  have taken := k.takeFrame h (requestFrameBytes c tag body) 0 part judged
  have written := k.reply _ taken
  unfold Machine.takeRequest
  cases part with
  | whole => simp only; split; exacts [taken, written]
  | reply => simp only; split; exacts [written, taken]
  | fall | clock | rise => exact taken

end FrameKeeps

theorem frameKeeps_locksOk (p : Port) : FrameKeeps p LocksOk where
  fall s := locksOk_of_eq ((fallFrame_only p s).locks rfl)
  clock bytes extra s := locksOk_of_eq ((clockFrame_only p bytes extra s).locks rfl)
  ends s := locksOk_of_eq ((endFrame_only p s).locks rfl)
  outcome _ s := locksOk_of_eq ((setPort_only p _ s).locks rfl)
  reply s := locksOk_of_eq ((writeReply_only p s).locks rfl)

theorem frameKeeps_claimsOk (p : Port) : FrameKeeps p fun s => SessionsOk s ∧ ClaimsOk s where
  fall s := fun ⟨hs, hc⟩ => ⟨(fallFrame_calm p s).keeps hs, ((fallFrame_only p s).mild (by decide)).claims hc⟩
  clock bytes extra s := fun ⟨hs, hc⟩ =>
    ⟨(clockFrame_calm p bytes extra s).keeps hs, ((clockFrame_only p bytes extra s).mild (by decide)).claims hc⟩
  ends s := fun ⟨hs, hc⟩ => ⟨(endFrame_calm p s).keeps hs, ((endFrame_only p s).mild (by decide)).claims hc⟩
  outcome o s := fun ⟨hs, hc⟩ => ⟨(recordOutcome_calm p o s).keeps hs, ((setPort_only p _ s).mild (by decide)).claims hc⟩
  reply s := fun ⟨hs, hc⟩ => ⟨hs.writeReply p, ((writeReply_only p s).mild (by decide)).claims hc⟩

/-- A frame that is judged by its outcome alone. -/
theorem takeFrame_guards (p : Port) (bytes : List Byte) (extra : Nat) {judge : State → State} (part : FramePart) (s : State)
    (x : ∀ P, FrameKeeps p P → ∀ u, P u → P (judge u)) : Guards s (takeFrame p bytes extra judge part s) where
  locks h := (frameKeeps_locksOk p).takeFrame h _ _ part (x _ (frameKeeps_locksOk p))
  claims _ hs _ hc := ((frameKeeps_claimsOk p).takeFrame ⟨hs, hc⟩ _ _ part (x _ (frameKeeps_claimsOk p))).2

theorem takeRequest_guards (c : RequestCode) (p : Port) (tag : Byte) (body : List Byte) (part : FramePart)
    {serve : State → State} (s : State) (x : ∀ u, Served p u (serve u)) (y : ∀ u, Accepted u p → SessionsOk (serve u)) :
    Guards s (takeRequest c p tag body part serve s) where
  locks h := (frameKeeps_locksOk p).takeRequest h c tag body part fun u _ hu =>
    (x _).locks (locksOk_of_eq (s := u) ((setPort_only p _ u).locks rfl) hu)
  claims _ hs _ hc := ((frameKeeps_claimsOk p).takeRequest ⟨hs, hc⟩ c tag body part fun u hp ⟨us, uc⟩ =>
    have a := acceptRequest_accepted tag us hp
    ⟨y _ a, (x _).claims a (((setPort_only p _ u).mild (by decide)).claims uc)⟩).2

/-! ## Every command -/

/-- The end of a tenure (R34). -/
theorem tenureEnded_mild (pl : Plane) (p : Port) (s : State) : Mild s (endTenure pl (setRead p none s)) :=
  (setRead_none_mild p s).trans (endTenure_mild pl _)

theorem execReadTenureEnd_mild {pl : Plane} {s t : State} (h : execReadTenureEnd pl s = .next t) : Mild s t := by
  unfold execReadTenureEnd at h
  repeat' split at h
  all_goals first | contradiction | obtain rfl := Host.Outcome.next.inj h
  · exact (tenureEnded_mild pl _ s).trans (answer_mild _ _ _ _)
  · exact .refl s
  · exact .refl s
  · exact .refl s
  · exact endTenure_mild _ s
  · exact .refl s

/-- The end of an OPEN COPY tenure: an OPEN of a record that is delete pending is refused, so STAGING begins on none
(R44, R45). -/
theorem execOpenCopyLoad_guards {pl : Plane} {s t : State} (h : execOpenCopyLoad pl s = .next t) : Guards s t := by
  unfold execOpenCopyLoad at h
  split at h
  · rename_i p _
    have ended := tenureEnded_mild pl p s
    repeat' split at h
    all_goals first | contradiction | obtain rfl := Host.Outcome.next.inj h
    · exact (ended.trans (answer_mild _ _ _ _)).guards
    · rename_i rd hrd _ hk _ _ accepted
      refine Guards.mild ?_ (answer_mild _ _ _ _)
      refine ⟨fun hl => locksOk_of_eq (s := endTenure pl (setRead p none s)) rfl (ended.toLoosens.locksOk hl),
        fun _ _ _ hc => ?_⟩
      refine beginStaging_claims (ended.claims hc) p ?_ _ _
      rw [ended.mark, ← Bool.not_eq_true]
      intro pending
      obtain ⟨-, inUse⟩ := (hc.unclaimed _ pending).opens p rd hrd rfl hk
      exact accepted inUse
    · exact .refl s
    · exact .refl s
    · exact .refl s
  · obtain rfl := Host.Outcome.next.inj h
    exact (endTenure_mild _ s).guards
  · obtain rfl := Host.Outcome.next.inj h
    exact .refl s

theorem execLeaseExpiry_mild {r : RecNo} {s t : State} (h : execLeaseExpiry r s = .next t) : Mild s t := by
  obtain rfl := Host.Outcome.next.inj h
  repeat' split
  · exact ((raiseLeaseLost_only _ r s).mild (by decide)).trans (handOn_mild r _)
  · exact .refl s
  · exact .refl s

theorem execWaitExpiry_mild {r : RecNo} {p : Port} {s t : State} (h : execWaitExpiry r p s = .next t) : Mild s t := by
  obtain rfl := Host.Outcome.next.inj h
  split
  · exact (setLock_mild (eases_leaveWaits p _)).trans (Only.mild (h := { reports := true, flags := true }) (.ofEq rfl) (by decide))
  · exact .refl s

theorem execSupplyWarningRaised_mild {s t : State} (h : execSupplyWarningRaised s = .next t) : Mild s t := by
  have rc : ∀ x u, Mild u (setRc x u) := fun x u => (setRc_only x u).mild (by decide)
  obtain rfl := Host.Outcome.next.inj h
  repeat' split
  · exact .refl s
  · exact rc _ s
  · exact rc _ s
  · exact (rc _ s).trans (Mild.forPorts (fun p u => (setFlags_only p _ u).mild (by decide)) _)

theorem findChipSelect_mild (p : Port) (low : Bool) (s : State) : Mild s (findChipSelect p low s) :=
  Only.mild (h := { ports := true, csLow := true }) (.ofEq rfl) (by decide)

theorem execPortClear_guards {p : Port} {s t : State} (h : execPortClear p s = .next t) : Guards s t := by
  have low : Only { clearLow := true } s { s with clearLow := s.clearLow.set p true } := .ofEq rfl
  have cleared := clearPort_guards p { s with clearLow := s.clearLow.set p true }
  obtain rfl := Host.Outcome.next.inj h
  simp only
  repeat' split
  · exact .refl s
  · exact low.guards (by decide)
  · exact ⟨cleared.locks, fun hl hs hd hc =>
      cleared.claims hl ((low.calm (by decide)).keeps hs) hd ((low.mild (by decide)).claims hc)⟩

theorem exec_guards {i : Instr} {s t : State} (h : exec i s = .next t) : Guards s t := by
  have request : ∀ {c p tag body part serve}, (∀ u, Served p u (serve u)) → (∀ u, Accepted u p → SessionsOk (serve u)) →
      (.next (takeRequest c p tag body part serve s) : Host.Outcome State Fault Refusal) = .next t → Guards s t :=
    fun x y ht => Host.Outcome.next.inj ht ▸ takeRequest_guards _ _ _ _ _ s x y
  have frame : ∀ {p bytes extra judge part}, (∀ P, FrameKeeps p P → ∀ u, P u → P (judge u)) →
      (.next (takeFrame p bytes extra judge part s) : Host.Outcome State Fault Refusal) = .next t → Guards s t :=
    fun x ht => Host.Outcome.next.inj ht ▸ takeFrame_guards _ _ _ _ s x
  cases i with
  | nop p tag body part => exact request (serveNop_served p body) (fun _ a => a.serveNop body) h
  | queryRecord p tag body part => exact request (serveQueryRecord_served p body) (fun _ a => a.serveQueryRecord body) h
  | readRecord p tag body part => exact request (serveReadRecord_served p body) (fun _ a => a.serveReadRecord body) h
  | deviceStatus p tag body part => exact request (serveDeviceStatus_served p body) (fun _ a => a.serveDeviceStatus body) h
  | openRecord p tag body part => exact request (serveOpenRecord_served p body) (fun _ a => a.serveOpenRecord body) h
  | stage p tag body part => exact request (serveStage_served p body) (fun _ a => a.serveStage body) h
  | append p tag body part => exact request (serveAppend_served p body) (fun _ a => a.serveAppend body) h
  | commit p tag body part => exact request (serveCommit_served p body) (fun _ a => a.serveCommit body) h
  | abandon p tag body part => exact request (serveAbandon_served p body) (fun _ a => a.serveAbandon body) h
  | fetchCommitResult p tag body part =>
    exact request (serveFetchCommitResult_served p body) (fun _ a => a.serveFetchCommitResult body) h
  | lock p tag body part => exact request (serveLock_served p body) (fun _ a => a.serveLock body) h
  | unlock p tag body part => exact request (serveUnlock_served p body) (fun _ a => a.serveUnlock body) h
  | fetchLockReport p tag body part =>
    exact request (serveFetchLockReport_served p body) (fun _ a => a.serveFetchLockReport body) h
  | watch p tag body part => exact request (serveWatch_served p body) (fun _ a => a.serveWatch body) h
  | unwatch p tag body part => exact request (serveUnwatch_served p body) (fun _ a => a.serveUnwatch body) h
  | fetchNotice p tag body part => exact request (serveFetchNotice_served p body) (fun _ a => a.serveFetchNotice body) h
  | acknowledge p tag body part => exact request (serveAcknowledge_served p body) (fun _ a => a.serveAcknowledge body) h
  | setAttentionMask p tag body part =>
    exact request (serveSetAttentionMask_served p body) (fun _ a => a.serveSetAttentionMask body) h
  | format p tag body part => exact request (serveFormat_served p body) (fun _ a => a.serveFormat body) h
  | define p tag body part => exact request (serveDefine_served p body) (fun _ a => a.serveDefine body) h
  | delete p tag body part => exact request (serveDelete_served p body) (fun _ a => a.serveDelete body) h
  | setAccess p tag body part => exact request (serveSetAccess_served p body) (fun _ a => a.serveSetAccess body) h
  | restart p tag body part => exact request (serveRestart_served p body) (fun _ a => a.serveRestart body) h
  | fetch p sent part => exact frame (fun _ _ _ hu => hu) h
  | poll p sent part => exact frame (fun _ _ _ hu => hu) h
  | frameError p bytes extra part =>
    simp only [exec, execFrameError] at h
    split at h
    · exact frame (fun _ k u hu => k.outcome _ u hu) h
    · exact frame (fun _ _ _ hu => hu) h
  | readTenureEnd pl => exact (execReadTenureEnd_mild h).guards
  | openCopyLoad pl => exact execOpenCopyLoad_guards h
  | engineStart => exact execEngineStart_guards h
  | eraseAttemptDone raised => exact execEraseAttemptDone_guards h
  | programAttemptDone cleared => exact execProgramAttemptDone_guards h
  | invalidationStep cleared => exact execInvalidationStep_guards h
  | timebasePeriodEnd => exact Host.Outcome.next.inj h ▸ (mapLocks_mild eases_tickLock s).guards
  | leaseExpiry r => exact (execLeaseExpiry_mild h).guards
  | waitExpiry r p => exact (execWaitExpiry_mild h).guards
  | supplyWarningRaised => exact (execSupplyWarningRaised_mild h).guards
  | supplyWarningRemoved =>
    obtain rfl := Host.Outcome.next.inj h
    split
    · exact (setRc_only _ s).guards (by decide)
    · exact .refl s
  | portClear p => exact execPortClear_guards h
  | portClearRelease p csLow =>
    obtain rfl := Host.Outcome.next.inj h
    split
    · have high : Only { clearLow := true } s { s with clearLow := s.clearLow.set p false } := .ofEq rfl
      exact ((high.mild (by decide)).trans (findChipSelect_mild p csLow _)).guards
    · exact .refl s
  | powerOnReset cut => exact Host.Outcome.next.inj h ▸ deviceReset_guards _ cut s
  | supplyReset cut => exact Host.Outcome.next.inj h ▸ deviceReset_guards _ cut s
  | pinReset cut =>
    obtain rfl := Host.Outcome.next.inj h
    split
    · exact .refl s
    · exact deviceReset_guards _ cut s
  | restartReset cut =>
    obtain rfl := Host.Outcome.next.inj h
    split
    · exact deviceReset_guards _ cut s
    · exact .refl s
  | resetRelease straps csLow =>
    obtain rfl := Host.Outcome.next.inj h
    split
    · have released := fun x => (setRc_only x s).mild (by decide)
      exact ((released _).trans (Mild.forPorts (fun p u => findChipSelect_mild p _ u) _)).guards
    · exact .refl s
  | mountStart => exact execMountStart_guards h
  | mountLayoutSelected => exact execMountLayoutSelected_guards h
  | mountSlotSet => exact execMountSlotSet_guards h
  | sourceLetsGo src =>
    obtain rfl := Host.Outcome.next.inj h
    split
    · exact (setRc_only _ s).guards (by decide)
    · exact .refl s

/-- Settles O54: what a command does to the lock table and to the claims on records is one of a few moves (`Mild`, and
the ones that begin or end a claim), and each keeps both. -/
theorem locksStayOk : Obligations.LocksStayOk := by
  intro s s' hs
  rcases step_cases hs with ⟨-, rfl⟩ | ⟨i, rest, -, hx⟩
  · exact ⟨id, fun _ _ _ => id⟩
  · have waiting : Only { pending := true } s { s with pending := rest } := .ofEq rfl
    have guards := exec_guards hx
    refine ⟨guards.locks, fun hl sessions hd claims => ?_⟩
    rw [← claimsOk_iff] at claims ⊢
    rw [← sessionsOk_iff] at sessions
    exact guards.claims hl ((waiting.calm (by decide)).keeps sessions) hd ((waiting.mild (by decide)).claims claims)

end Sys2Proof.Machine

namespace Sys2Proof.Machine

open Sys2Proof

/-- A request that writes one lock and is answered. -/
theorem respond_awaiting_setLock (p : Port) (tag : Byte) (body : List Byte) (r : RecNo) (l : Lock) (c : ResultCode)
    (b : List Byte) (s : State) :
    writeReply p (respond p c b (setLock r l (awaiting s p tag body))) =
      { answered s p tag body c b with locks := s.locks.set r l } :=
  respond_awaiting p tag body c b s _ rfl

/-! ## LOCK (R85, R86) -/

theorem exec_lock {s : State} {p : Port} (tag : Byte) {body : List Byte} (h : CanServe s p) (hb : body.length ≤ 252) :
    exec (.lock p tag body) s = .next (writeReply p (serveLock p body (awaiting s p tag body))) :=
  congrArg Host.Outcome.next (takeRequest_accepted _ _ _ _ _ _ h.1 hb)

theorem lockBody_none {body : List Byte}
    (h : body.length ≠ 3 ∨ ∃ rb l w : Byte, body = [rb, l, w] ∧ (128 ≤ rb.toNat ∨ l = 0)) : lockBody body = none := by
  rcases h with h | ⟨rb, l, w, rfl, h⟩
  · match body with
    | [] | [_] | [_, _] | _ :: _ :: _ :: _ :: _ => rfl
    | [_, _, _] => exact absurd rfl h
  · rw [lockBody, ite_eq_left_iff, Option.map_eq_none_iff, recordOfByte_none]
    exact fun hl => h.resolve_right hl

theorem lockBody_recByte (r : RecNo) {l : Byte} (w : Byte) (hl : l ≠ 0) :
    lockBody [recByte r, l, w] = some (r, l.toNat, w.toNat) := by
  rw [lockBody, if_neg hl, recordOfByte_recByte, Option.map_some]

theorem lockRecord_free {p : Port} {r : RecNo} {u : State} (lease wait : Nat) (h : lockOf u r = Lock.free) :
    lockRecord p r lease wait u = respond p .ok [recByte r, natByte lease, 0] (setLock r (grantedTo p lease []) u) := by
  rw [lockRecord_unheld _ _ (congrArg Lock.holder h), h]
  rfl

section LockAsked

variable {p : Port} {u : State} {body : List Byte} {r : RecNo} {lease wait : Nat} {e : LayoutEntry}

theorem serveLock_range (hd : u.device = .ready) (hb : lockBody body = none) :
    serveLock p body u = refuse p .range u := by
  simp [serveLock, hd, hb]

variable (hd : u.device = .ready) (hb : lockBody body = some (r, lease, wait))

include hd hb

theorem serveLock_undefined (he : (slotOf u r).entry = none) : serveLock p body u = refuse p .noRecord u := by
  simp [serveLock, hd, hb, he]

theorem serveLock_noAccess (he : (slotOf u r).entry = some e) (hw : e.writeSet.get p = false) :
    serveLock p body u = refuse p .noAccess u := by
  simp [serveLock, hd, hb, he, hw]

theorem serveLock_inUse (he : (slotOf u r).entry = some e) (hw : e.writeSet.get p = true)
    (hp : (slotOf u r).deletePending = true) : serveLock p body u = refuse p .inUse u := by
  simp [serveLock, hd, hb, he, hw, hp]

theorem serveLock_taken (he : (slotOf u r).entry = some e) (hw : e.writeSet.get p = true)
    (hp : (slotOf u r).deletePending = false) : serveLock p body u = lockRecord p r lease wait u := by
  simp [serveLock, hd, hb, he, hw, hp]

end LockAsked

/-- Settles O22: the checks one by one, then the lock as it stands. -/
theorem locksAreAsked : Obligations.LocksAreAsked := by
  refine fun s p tag h => ⟨fun body hl hb => ?_, fun r l w hl => ?_⟩
  · rw [exec_lock tag h hl, serveLock_range (u := awaiting s p tag body) h.2 (lockBody_none hb), refuse_awaiting_self]
  have body := lockBody_recByte r w hl
  have served := exec_lock tag (body := [recByte r, l, w]) h (by simp)
  refine ⟨fun he => ?_, fun e he => ⟨fun hw => ?_, fun hw hp => ?_, fun hw hp => ?_⟩⟩
  · rw [served, serveLock_undefined (u := awaiting s p tag _) h.2 body he, refuse_awaiting_self]
  · rw [served, serveLock_noAccess (u := awaiting s p tag _) h.2 body he hw, refuse_awaiting_self]
  · rw [served, serveLock_inUse (u := awaiting s p tag _) h.2 body he hw hp, refuse_awaiting_self]
  have taken := served
  rw [serveLock_taken (u := awaiting s p tag _) h.2 body he hw hp] at taken
  refine ⟨fun free => ?_, fun own => ?_, fun q held other => ⟨fun once => ?_, fun waits on => ?_, fun waits off => ?_⟩⟩
  · rw [taken, lockRecord_free (u := awaiting s p tag _) _ _ free, respond_awaiting_setLock, natByte_toNat]
    rfl
  · rw [taken, lockRecord_own (u := awaiting s p tag _) _ _ own, respond_awaiting_setLock, natByte_toNat]
    rfl
  · rw [taken, lockRecord_held (u := awaiting s p tag _) _ _ held other, if_pos (by simp [once]), respond_awaiting_self]
  · have somewhere : waitsAnywhere (awaiting s p tag [recByte r, l, w]) p = true := (waitsAnywhere_iff s p).mpr on
    have positive : w.toNat ≠ 0 := fun h0 => waits (BitVec.eq_of_toNat_eq h0)
    rw [taken, lockRecord_held (u := awaiting s p tag _) _ _ held other, if_neg positive, if_pos somewhere, refuse_awaiting_self]
  · have nowhere : ¬waitsAnywhere (awaiting s p tag [recByte r, l, w]) p = true := fun on => by
      obtain ⟨r', hr'⟩ := (waitsAnywhere_iff s p).mp on
      simp [off r'] at hr'
    have positive : w.toNat ≠ 0 := fun h0 => waits (BitVec.eq_of_toNat_eq h0)
    rw [taken, lockRecord_held (u := awaiting s p tag _) _ _ held other, if_neg positive, if_neg nowhere, respond_awaiting_setLock]
    rfl

/-! ## UNLOCK (R88, R89) -/

theorem exec_unlock {s : State} {p : Port} (tag : Byte) {body : List Byte} (h : CanServe s p) (hb : body.length ≤ 252) :
    exec (.unlock p tag body) s = .next (writeReply p (serveUnlock p body (awaiting s p tag body))) :=
  congrArg Host.Outcome.next (takeRequest_accepted _ _ _ _ _ _ h.1 hb)

/-! ### The hand-on -/

theorem handOn_unwaited {r : RecNo} {u : State} (h : (lockOf u r).waits = []) : handOn r u = setLock r Lock.free u := by
  simp only [handOn, h]

theorem handOn_waited {r : RecNo} {u : State} {w : Wait} {ws : List Wait} (h : (lockOf u r).waits = w :: ws) :
    handOn r u = raiseLockGranted w.port (reportGranted w.port r (setLock r (grantedTo w.port w.lease ws) u)) := by
  simp only [handOn, h]

section UnlockRecord

variable {p : Port} {r : RecNo} {u : State}

theorem unlockRecord_unwaited (hh : (lockOf u r).holder = some p) (hw : (lockOf u r).waits = []) :
    unlockRecord p r u = respond p .ok [0, noneByte] (setLock r Lock.free u) := by
  simp only [unlockRecord, if_pos hh, handOn_unwaited hw, lockOf_setLock_self]
  rfl

theorem unlockRecord_waited {w : Wait} {ws : List Wait} (hh : (lockOf u r).holder = some p)
    (hw : (lockOf u r).waits = w :: ws) : unlockRecord p r u = respond p .ok [0, portByte w.port] (handOn r u) := by
  have handed : (lockOf (handOn r u) r).holder = some w.port := by
    rw [lockOf_handOn_eq, if_pos rfl, handedOn_cons hw]
    rfl
  simp only [unlockRecord, if_pos hh, handed]
  rfl

theorem unlockRecord_waiter (hh : (lockOf u r).holder ≠ some p) (hw : waitsOn (lockOf u r) p = true) :
    unlockRecord p r u = respond p .ok [1, noneByte] (setLock r (leaveWaits p (lockOf u r)) u) := by
  simp only [unlockRecord, if_neg hh, if_pos hw]

theorem unlockRecord_other (hh : (lockOf u r).holder ≠ some p) (hw : waitsOn (lockOf u r) p = false) :
    unlockRecord p r u = refuse p .notHolder u := by
  simp only [unlockRecord, if_neg hh, hw, Bool.false_eq_true, if_false]

end UnlockRecord

section LockReleased

variable {p : Port} {u : State} {body : List Byte}

theorem serveUnlock_range (hd : u.device = .ready) (hb : recordBody body = none) :
    serveUnlock p body u = refuse p .range u := by
  simp [serveUnlock, hd, hb]

theorem serveUnlock_undefined {r : RecNo} (hd : u.device = .ready) (hb : recordBody body = some r)
    (he : (slotOf u r).entry = none) : serveUnlock p body u = refuse p .noRecord u := by
  simp [serveUnlock, hd, hb, he]

theorem serveUnlock_taken {r : RecNo} (hd : u.device = .ready) (hb : recordBody body = some r)
    (he : (slotOf u r).entry ≠ none) : serveUnlock p body u = unlockRecord p r u := by
  obtain ⟨e, he⟩ := Option.ne_none_iff_exists'.mp he
  simp [serveUnlock, hd, hb, he]

end LockReleased

/-- Settles O23: the checks, then the holder's release, the waiter's leave and the refusal of any other port. -/
theorem locksAreReleased : Obligations.LocksAreReleased := by
  refine fun s p tag h => ⟨fun body hl hb => ?_, fun r => ?_⟩
  · rw [exec_unlock tag h hl, serveUnlock_range (u := awaiting s p tag body) h.2 (recordBody_none hb),
      refuse_awaiting_self]
  have body := recordBody_recByte r
  have served := exec_unlock tag (body := [recByte r]) h (by simp)
  refine ⟨fun he => ?_, fun he => ?_⟩
  · rw [served, serveUnlock_undefined (u := awaiting s p tag _) h.2 body he, refuse_awaiting_self]
  rw [serveUnlock_taken (u := awaiting s p tag _) h.2 body he] at served
  refine ⟨fun holds none => ?_, fun w ws holds waited => ?_, fun free waits => ?_, fun free off => ?_⟩
  · rw [served, unlockRecord_unwaited (u := awaiting s p tag _) holds none, respond_awaiting_setLock]
    rfl
  · rw [served, unlockRecord_waited (u := awaiting s p tag _) holds waited, handOn_waited (u := awaiting s p tag _) waited]
    exact congrArg Host.Outcome.next (respond_awaiting p tag [recByte r] _ _ s _ rfl)
  · rw [served, unlockRecord_waiter (u := awaiting s p tag _) free waits, respond_awaiting_setLock]
    rfl
  · rw [served, unlockRecord_other (u := awaiting s p tag _) free off, refuse_awaiting_self]

/-! ## Countdowns (R84, R90, R91) -/

theorem lockOf_timebasePeriodEnd (s : State) (r : RecNo) :
    lockOf { s with locks := s.locks.map tickLock } r = tickLock (lockOf s r) := Table.get_map tickLock s.locks r

/-- An expiry that is due: the former holder's report and LEASE_LOST, then the hand-on (R90). -/
theorem exec_leaseExpiry_due {s : State} {r : RecNo} {h : Port} (hh : (lockOf s r).holder = some h)
    (due : (lockOf s r).leaseDue = true) :
    exec (.leaseExpiry r) s = .next (handOn r (raiseLeaseLost h (reportLost h r s))) := by
  show execLeaseExpiry r s = _
  simp only [execLeaseExpiry, hh, if_pos due]

theorem exec_leaseExpiry_not_due {s : State} {r : RecNo} (due : (lockOf s r).leaseDue = false) :
    exec (.leaseExpiry r) s = .next s := by
  show execLeaseExpiry r s = _
  simp only [execLeaseExpiry, due, Bool.false_eq_true, if_false]
  split <;> rfl

/-- A wait whose expiry is due (R91). -/
theorem waitDue_iff (l : Lock) (p : Port) :
    l.waits.any (fun w => decide (w.port = p) && w.due) = true ↔ ∃ w ∈ l.waits, w.port = p ∧ w.due = true := by
  simp

theorem exec_waitExpiry_due {s : State} {r : RecNo} {p : Port} (h : ∃ w ∈ (lockOf s r).waits, w.port = p ∧ w.due = true) :
    exec (.waitExpiry r p) s =
      .next (raiseLockTimeout p (reportTimedOut p r (setLock r (leaveWaits p (lockOf s r)) s))) :=
  congrArg Host.Outcome.next (if_pos ((waitDue_iff _ p).mpr h))

theorem exec_waitExpiry_not_due {s : State} {r : RecNo} {p : Port}
    (h : ∀ w ∈ (lockOf s r).waits, w.port = p → w.due = false) : exec (.waitExpiry r p) s = .next s := by
  refine congrArg Host.Outcome.next (if_neg fun due => ?_)
  obtain ⟨w, hw, hp, due⟩ := (waitDue_iff _ p).mp due
  simp [h w hw hp] at due

/-- Settles O24: the period's end lock by lock, then the two expiries, due or not. -/
theorem countdownsRunOut : Obligations.CountdownsRunOut := by
  refine ⟨fun s => ⟨_, rfl, rfl, fun r => ?_⟩, fun s r => ⟨fun h hh due => ⟨fun none => ?_, fun w ws waited other => ?_⟩,
    exec_leaseExpiry_not_due, fun p => ⟨exec_waitExpiry_due, exec_waitExpiry_not_due⟩⟩⟩
  · rw [lockOf_timebasePeriodEnd]
    refine ⟨tickLock_holder _, tickLock_of_none, fun held long => ?_, fun held last => ?_, tickLock_waits _⟩
    · have running : ¬(lockOf s r).lease ≤ 1 := by omega
      simpa only [if_neg running] using tickLock_of_held held
    · simpa [last] using tickLock_of_held held
  · rw [exec_leaseExpiry_due hh due, handOn_unwaited (u := raiseLeaseLost h (reportLost h r s)) none]
    rfl
  · have report : (s.reports.set h { s.reports.get h with lost := some r }).get w.port = s.reports.get w.port :=
      PerPort.get_set_ne _ _ _ _ other
    have flags : (s.flags.set h { s.flags.get h with leaseLost := true }).get w.port = s.flags.get w.port :=
      PerPort.get_set_ne _ _ _ _ other
    rw [exec_leaseExpiry_due hh due, handOn_waited (u := raiseLeaseLost h (reportLost h r s)) waited, ← report, ← flags]
    rfl

end Sys2Proof.Machine

namespace Sys2Proof.Machine

open Sys2Proof

/-! ## READ RECORD (R102, R103) -/

theorem exec_readRecord {s : State} {p : Port} (tag : Byte) {body : List Byte} (h : CanServe s p)
    (hb : body.length ≤ 252) :
    exec (.readRecord p tag body) s = .next (writeReply p (serveReadRecord p body (awaiting s p tag body))) :=
  congrArg Host.Outcome.next (takeRequest_accepted _ _ _ _ _ _ h.1 hb)

theorem readBody_none_of_length {body : List Byte} (h : body.length ≠ 3) : readBody body = none := by
  match body with
  | [] | [_] | [_, _] | _ :: _ :: _ :: _ :: _ => rfl
  | [_, _, _] => exact absurd rfl h

theorem readBody_none_of_code {rb : Byte} (o n : Byte) (h : 128 ≤ rb.toNat) : readBody [rb, o, n] = none := by
  rw [readBody, (recordOfByte_none rb).mpr h, Option.map_none]

theorem readBody_recByte (r : RecNo) (o n : Byte) : readBody [recByte r, o, n] = some (r, o.toNat, n.toNat) := by
  rw [readBody, recordOfByte_recByte, Option.map_some]

theorem serveReadRecord_range {p : Port} {u : State} {body : List Byte} (hd : u.device = .ready)
    (hb : readBody body = none) : serveReadRecord p body u = refuse p .range u := by
  rw [serveReadRecord, whenReady_ready hd, withBody_none hb]

/-- The last check of R102: the bytes asked for are some, and in the record. -/
def readExtentCheck (p : Port) (r : RecNo) (o n : Nat) (e : LayoutEntry) (c : Plane) : State → State :=
  refuseIf (decide (n = 0 ∨ e.length ≤ o ∨ e.length < o + n)) p .range (startRead p (.record o n) r e c)

theorem readExtentCheck_outside {p : Port} {r : RecNo} {o n : Nat} {e : LayoutEntry} (c : Plane) (u : State)
    (h : n = 0 ∨ e.length ≤ o ∨ e.length < o + n) : readExtentCheck p r o n e c u = refuse p .range u := by
  rw [readExtentCheck, decide_eq_true h, refuseIf_true]

theorem readExtentCheck_inside {p : Port} {r : RecNo} {o n : Nat} {e : LayoutEntry} (c : Plane) (u : State)
    (hn : n ≠ 0) (ho : o < e.length) (hl : o + n ≤ e.length) :
    readExtentCheck p r o n e c u = startRead p (.record o n) r e c u := by
  rw [readExtentCheck, decide_eq_false (by omega), refuseIf_false]

section ReadAsked

variable {p : Port} {u : State} {body : List Byte} {r : RecNo} {o n : Nat} {e : LayoutEntry}
  (hd : u.device = .ready) (hb : readBody body = some (r, o, n))

include hd hb

/-- Past the device state and the body: the checks on the record, the right, the content and the bytes remain. -/
theorem serveReadRecord_asked : serveReadRecord p body u =
    withRecord p r (fun e =>
      refuseIf (!e.readSet.get p) p .noAccess (withContent p r (readExtentCheck p r o n e))) u := by
  rw [serveReadRecord, whenReady_ready hd, withBody_some hb]
  rfl

theorem serveReadRecord_undefined (he : (slotOf u r).entry = none) :
    serveReadRecord p body u = refuse p .noRecord u := by
  rw [serveReadRecord_asked hd hb, withRecord_undefined he]

theorem serveReadRecord_noAccess (he : (slotOf u r).entry = some e) (hr : e.readSet.get p = false) :
    serveReadRecord p body u = refuse p .noAccess u := by
  rw [serveReadRecord_asked hd hb, withRecord_defined he, hr, Bool.not_false, refuseIf_true]

theorem serveReadRecord_readable (he : (slotOf u r).entry = some e) (hr : e.readSet.get p = true) :
    serveReadRecord p body u = withContent p r (readExtentCheck p r o n e) u := by
  rw [serveReadRecord_asked hd hb, withRecord_defined he, hr, Bool.not_true, refuseIf_false]

end ReadAsked

/-- A read that has started leaves its port awaiting the response (R103). -/
theorem writeReply_startRead_awaiting (p : Port) (tag : Byte) (body : List Byte) (k : ReadKind) (r : RecNo)
    (e : LayoutEntry) (c : Plane) (s : State) :
    writeReply p (startRead p k r e c (awaiting s p tag body)) = startRead p k r e c (awaiting s p tag body) :=
  writeReply_awaiting p tag body s _ ((startRead_only _ _ _ _ _ _).ports rfl)

/-- Settles O14: the body, then R102's checks on the record, the right, the content and the bytes asked for. -/
theorem readRecordIsTaken : Obligations.ReadRecordIsTaken := by
  refine fun s p tag h => ⟨fun body hl hb => ?_, fun rb o n hb => ?_, fun r o n => ?_⟩
  · rw [exec_readRecord tag h hl, serveReadRecord_range (u := awaiting s p tag body) h.2 (readBody_none_of_length hb),
      refuse_awaiting_self]
  · rw [exec_readRecord tag h (by simp), serveReadRecord_range (u := awaiting s p tag [rb, o, n]) h.2
      (readBody_none_of_code o n hb), refuse_awaiting_self]
  have body := readBody_recByte r o n
  have served := exec_readRecord tag (body := [recByte r, o, n]) h (by simp)
  refine ⟨fun he => ?_, fun e he => ⟨fun hr => ?_, fun hr hc => ?_, fun hr hc => ?_, fun c g hr hc => ?_⟩⟩
  · rw [served, serveReadRecord_undefined (u := awaiting s p tag _) h.2 body he, refuse_awaiting_self]
  · rw [served, serveReadRecord_noAccess (u := awaiting s p tag _) h.2 body he hr, refuse_awaiting_self]
  all_goals rw [served, serveReadRecord_readable (u := awaiting s p tag _) h.2 body he hr]
  · rw [withContent_empty (u := awaiting s p tag _) hc, refuse_awaiting_self]
  · rw [withContent_damaged (u := awaiting s p tag _) hc, refuse_awaiting_self]
  rw [withContent_valid (u := awaiting s p tag _) hc]
  have count : n.toNat = 0 ↔ n = 0 := by simp [← BitVec.toNat_inj]
  refine ⟨fun outside => ?_, fun hn ho hl => ?_⟩
  · rw [readExtentCheck_outside c _ (outside.imp_left count.mpr), refuse_awaiting_self]
  · rw [readExtentCheck_inside c _ (mt count.mp hn) ho hl, writeReply_startRead_awaiting]
    rfl

/-! ## The end of a READ RECORD tenure (R19, R104, R105, R110) -/

/-- A READ RECORD tenure that has come to its end. -/
theorem exec_readTenureEnd {s : State} {pl : Plane} {p : Port} {rd : Read} {o n : Nat}
    (hh : (s.arbiters.get pl).holder = .read p) (hr : s.reads.get p = some rd) (hk : rd.kind = .record o n)
    (hph : rd.phase = .reading) (hpl : rd.plane = pl) :
    exec (.readTenureEnd pl) s =
      if extentInArray rd.basePage (extentPages rd.length) then
        .next (answer p .ok (genBytes (imageGeneration (readImage s rd)) ++ imageData (readImage s rd) o n)
          (endTenure pl (setRead p none s)))
      else .fault .pageOutsideArray := by
  simp only [exec, execReadTenureEnd, arbiterOf, hh, hr, hk, hph, hpl, and_self, if_true]

/-- The answer to a read whose extent lies in the array: bytes 4 and 5 of the extent are the generation (R27, R105). -/
theorem exec_readTenureEnd_inArray {s : State} {pl : Plane} {p : Port} {rd : Read} {o n : Nat} {tag : Byte}
    (hh : (s.arbiters.get pl).holder = .read p) (hr : s.reads.get p = some rd) (hk : rd.kind = .record o n)
    (hph : rd.phase = .reading) (hpl : rd.plane = pl) (hp : (s.ports.get p).inProgress = some tag)
    (hx : extentInArray rd.basePage (extentPages rd.length) = true) :
    exec (.readTenureEnd pl) s = .next { endTenure pl { s with reads := s.reads.set p none } with
      ports := withResponse s p tag .ok
        ([memRead s.array (pageAddress pl rd.basePage + 4), memRead s.array (pageAddress pl rd.basePage + 5)] ++
         imageData (readExtent s.array pl rd.basePage (extentPages rd.length)) o n) } := by
  have ports : (endTenure pl (setRead p none s)).ports = s.ports := (endTenure_only pl (setRead p none s)).ports rfl
  have inProgress : ((endTenure pl (setRead p none s)).ports.get p).inProgress = some tag := by rw [ports, hp]
  rw [exec_readTenureEnd hh hr hk hph hpl, if_pos hx, answer_inProgress p tag _ _ _ inProgress, readImage,
    imageGeneration_readExtent, genBytes_genOfBytes, hpl, withResponse, ports]
  rfl

/-- Settles O16: the answer is the extent's, and inside the record its data are the array's bytes after the header. -/
theorem readTenureEnds : Obligations.ReadTenureEnds := by
  refine fun s pl p rd o n tag => ⟨fun hh hr hk hph hpl hp => ?_, fun hh => ?_⟩
  · have answered := exec_readTenureEnd_inArray hh hr hk hph hpl hp
    refine ⟨answered, fun hx inside => ?_, fun hx => ?_⟩
    · rw [answered hx, imageData_readExtent _ _ _ inside, Nat.add_assoc]
    · rw [exec_readTenureEnd hh hr hk hph hpl, if_neg (by simp [hx])]
  · simp only [exec, execReadTenureEnd, arbiterOf, hh]

end Sys2Proof.Machine

/-! # The notice queues and the watch sets at every command

Most commands touch neither the queues and NOTICE_PENDING nor the watch and read sets (`Unnoticed`). The others are
WATCH, UNWATCH and FETCH NOTICE, the completion of an entry, the selection of a layout at mount, a port clear and the
resets. -/

namespace Sys2Proof.Machine

open Sys2Proof

/-! ## One port's queue, and one record at one port (R115, R120) -/

/-- A notice queue with its NOTICE_PENDING (R115, R120). -/
def NoticesAt (q : List Notice) (pending : Bool) : Prop :=
  q.length ≤ 8 ∧ (q.map Notice.record).Nodup ∧ (pending = true ↔ q ≠ [])

theorem NoticesOk.atPort {s : State} (h : NoticesOk s) (p : Port) :
    NoticesAt (s.notices.get p) (s.flags.get p).noticePending := h p

/-- What R115 says of a record and a port: the port watches only with the right to read, and has a notice only while it
watches. -/
structure WatchAt (r : RecNo) (p : Port) (x : Slot) (q : List Notice) : Prop where
  reads : x.watch.get p = true → ∃ e, x.entry = some e ∧ e.readSet.get p = true
  watches : ∀ n ∈ q, n.record = r → x.watch.get p = true

theorem watchOk_iff (s : State) : WatchOk s ↔ ∀ r p, WatchAt r p (slotOf s r) (s.notices.get p) := by
  constructor
  · rintro ⟨reads, watches⟩ r p
    exact ⟨reads r p, fun n hn hr => hr ▸ watches p n hn⟩
  · intro h
    exact ⟨fun r p => (h r p).reads, fun p n hn => (h n.record p).watches n hn rfl⟩

/-- A port watches the records of its notices (R115). -/
theorem WatchOk.watched {s : State} (h : WatchOk s) {p : Port} {n : Notice} (hn : n ∈ s.notices.get p) :
    (slotOf s n.record).watch.get p = true := h.2 p n hn

/-- A queue loses notices, and NOTICE_PENDING follows it. -/
theorem NoticesAt.sublist {q q' : List Notice} {b : Bool} (h : NoticesAt q b) (hq : q'.Sublist q) :
    NoticesAt q' (!q'.isEmpty) := by
  obtain ⟨room, once, -⟩ := h
  exact ⟨hq.length_le.trans room, once.sublist (hq.map _), by simp⟩

namespace WatchAt

variable {r : RecNo} {p : Port} {x y : Slot} {q q' : List Notice}

/-- The slot keeps its sets, and no notice for the record joins the queue. -/
theorem of_same (h : WatchAt r p x q) (hw : y.watch.get p = x.watch.get p) (he : y.entry = x.entry)
    (hq : ∀ n ∈ q', n.record = r → n ∈ q) : WatchAt r p y q' :=
  ⟨by rw [hw, he]; exact h.reads, fun n hn hr => hw.trans (h.watches n (hq n hn hr) hr)⟩

theorem of_unwatched (hw : x.watch.get p = false) (hq : ∀ n ∈ q, n.record ≠ r) : WatchAt r p x q :=
  ⟨fun h => by simp [hw] at h, fun n hn hr => absurd hr (hq n hn)⟩

theorem of_dropped (hw : x.watch.get p = false) : WatchAt r p x (q.filter fun n => n.record ≠ r) :=
  of_unwatched hw fun n hn => by simpa using (List.mem_filter.mp hn).2

theorem no_notice (h : WatchAt r p x q) (hw : x.watch.get p = false) : ∀ n ∈ q, n.record ≠ r :=
  fun n hn hr => by simpa [hw] using h.watches n hn hr

theorem unwatched (h : WatchAt r p x q) (he : x.entry = none) : x.watch.get p = false := by
  rw [← Bool.not_eq_true]
  intro hw
  obtain ⟨e, hs, -⟩ := h.reads hw
  simp [he] at hs

end WatchAt

/-! ## What leaves both alone -/

/-- No queue, NOTICE_PENDING, watch set or persistent part of a slot changes. -/
structure Unnoticed (s t : State) : Prop where
  notices : t.notices = s.notices
  pending : ∀ p, (t.flags.get p).noticePending = (s.flags.get p).noticePending
  watch : ∀ r, (slotOf t r).watch = (slotOf s r).watch
  entry : ∀ r, (slotOf t r).entry = (slotOf s r).entry

/-- A command, or a part of one, keeps the queues, and the queues with the watch sets. -/
structure Heeds (s t : State) : Prop where
  notices : NoticesOk s → NoticesOk t
  watch : WatchOk s → WatchOk t

/-- The homes that the queues, the flags and the slots are none of. -/
def unnoticedHomes : Homes :=
  { pending := true, array := true, ports := true, clearLow := true, csLow := true, sessions := true, queue := true
    engine := true, results := true, arbiters := true, reads := true, locks := true, reports := true, masks := true
    mount := true, device := true, rc := true }

namespace Unnoticed

variable {s t u : State}

theorem refl (s : State) : Unnoticed s s := ⟨rfl, fun _ => rfl, fun _ => rfl, fun _ => rfl⟩

theorem trans (x : Unnoticed s t) (y : Unnoticed t u) : Unnoticed s u :=
  ⟨y.notices.trans x.notices, fun p => (y.pending p).trans (x.pending p), fun r => (y.watch r).trans (x.watch r),
    fun r => (y.entry r).trans (x.entry r)⟩

theorem forPorts {f : Port → State → State} (x : ∀ p s, Unnoticed s (f p s)) (s : State) :
    Unnoticed s (forPorts f s) :=
  (((x _ _).trans (x _ _)).trans (x _ _)).trans (x _ _)

theorem foldl {α : Type} {f : State → α → State} (x : ∀ s a, Unnoticed s (f s a)) (l : List α) (s : State) :
    Unnoticed s (l.foldl f s) := by
  induction l generalizing s with
  | nil => exact refl s
  | cons a l ih => exact (x s a).trans (ih _)

theorem noticesOk (x : Unnoticed s t) (h : NoticesOk s) : NoticesOk t := fun p => by
  rw [x.notices, x.pending]
  exact h p

theorem heeds (x : Unnoticed s t) : Heeds s t := by
  refine ⟨x.noticesOk, fun h => ?_⟩
  rw [watchOk_iff] at h ⊢
  exact fun r p => (h r p).of_same (by rw [x.watch]) (x.entry r) fun n hn _ => by rwa [x.notices] at hn

end Unnoticed

theorem Heeds.refl (s : State) : Heeds s s := ⟨id, id⟩

theorem Heeds.trans {s t u : State} (x : Heeds s t) (y : Heeds t u) : Heeds s u :=
  ⟨fun h => y.notices (x.notices h), fun h => y.watch (x.watch h)⟩

theorem Only.unnoticed {h : Homes} {s t : State} (x : Only h s t) (hh : h.le unnoticedHomes = true) : Unnoticed s t := by
  have y := x.mono hh
  have slots := slotOf_congr (y.dir rfl)
  exact ⟨y.notices rfl, fun p => by rw [y.flags rfl], fun r => by rw [slots], fun r => by rw [slots]⟩

/-- Flags change, but not NOTICE_PENDING. -/
theorem setFlags_unnoticed {p : Port} {x : Flags} {s : State} (h : x.noticePending = (s.flags.get p).noticePending) :
    Unnoticed s (setFlags p x s) := by
  refine ⟨rfl, fun q => ?_, fun _ => rfl, fun _ => rfl⟩
  rw [setFlags_flags, PerPort.get_set]
  split
  · subst_vars; exact h
  · rfl

theorem setSlot_unnoticed {r : RecNo} {x : Slot} {s : State} (hw : x.watch = (slotOf s r).watch)
    (he : x.entry = (slotOf s r).entry) : Unnoticed s (setSlot r x s) := by
  refine ⟨rfl, fun _ => rfl, fun q => ?_, fun q => ?_⟩ <;> rw [slotOf_setSlot] <;> split
  · subst_vars; exact hw
  · rfl
  · subst_vars; exact he
  · rfl

/-! ### Responses, reads and locks -/

theorem respond_unnoticed (p : Port) (c : ResultCode) (b : List Byte) (s : State) : Unnoticed s (respond p c b s) :=
  (respond_only p c b s).unnoticed (by decide)

theorem refuse_unnoticed (p : Port) (c : ResultCode) (s : State) : Unnoticed s (refuse p c s) :=
  respond_unnoticed p c [] s

theorem answer_unnoticed (p : Port) (c : ResultCode) (b : List Byte) (s : State) : Unnoticed s (answer p c b s) :=
  (answer_only p c b s).unnoticed (by decide)

theorem setSession_unnoticed (p : Port) (x : Session) (s : State) : Unnoticed s (setSession p x s) :=
  (setSession_only p x s).unnoticed (by decide)

theorem setLock_unnoticed (r : RecNo) (l : Lock) (s : State) : Unnoticed s (setLock r l s) :=
  (setLock_only r l s).unnoticed (by decide)

theorem setRc_unnoticed (x : ResetControl) (s : State) : Unnoticed s (setRc x s) := (setRc_only x s).unnoticed (by decide)

theorem setEngine_unnoticed (x : Engine) (s : State) : Unnoticed s (setEngine x s) :=
  (setEngine_only x s).unnoticed (by decide)

theorem endTenure_unnoticed (pl : Plane) (s : State) : Unnoticed s (endTenure pl s) :=
  (endTenure_only pl s).unnoticed (by decide)

theorem tenureEnded_unnoticed (pl : Plane) (p : Port) (s : State) : Unnoticed s (endTenure pl (setRead p none s)) :=
  ((setRead_only p none s).unnoticed (by decide)).trans (endTenure_unnoticed pl _)

theorem handOn_unnoticed (r : RecNo) (s : State) : Unnoticed s (handOn r s) := by
  unfold handOn
  split
  · exact setLock_unnoticed r _ s
  · exact ((setLock_unnoticed r _ s).trans ((setReport_only _ _ _).unnoticed (by decide))).trans (setFlags_unnoticed rfl)

theorem clearLocks_unnoticed (p : Port) (s : State) : Unnoticed s (clearLocks p s) := by
  have left : Only { locks := true } s { s with locks := s.locks.map (leaveWaits p) } := .ofEq rfl
  refine ((left.unnoticed (by decide)).trans (.foldl (fun u r => ?_) allRecords _)).trans
    ((setReport_only p _ _).unnoticed (by decide))
  split
  · exact handOn_unnoticed r u
  · exact .refl u

/-- A lost lease (R90, R98). -/
theorem leaseLost_unnoticed (h : Port) (r : RecNo) (s : State) : Unnoticed s (raiseLeaseLost h (reportLost h r s)) :=
  Unnoticed.trans ((setReport_only h _ s).unnoticed (by decide)) (setFlags_unnoticed rfl)

/-- A wait that ends without the lock (R91, R98). -/
theorem timedOut_unnoticed (p : Port) (r : RecNo) (s : State) : Unnoticed s (raiseLockTimeout p (reportTimedOut p r s)) :=
  Unnoticed.trans ((setReport_only p _ s).unnoticed (by decide)) (setFlags_unnoticed rfl)

theorem applyWriteSet_unnoticed (r : RecNo) (ws : PortSet) (s : State) : Unnoticed s (applyWriteSet r ws s) := by
  have expelled : ∀ l (out : List Wait), Unnoticed s
      (List.foldl (fun s w => expelWaiter r w.port s) (setLock r l s) out) :=
    fun l out => (setLock_unnoticed r l s).trans (.foldl (fun u w => timedOut_unnoticed w.port r u) out _)
  simp only [applyWriteSet]
  repeat' split
  · exact expelled _ _
  · exact (expelled _ _).trans ((leaseLost_unnoticed _ r _).trans (handOn_unnoticed r _))
  · exact expelled _ _

/-! ### Entries -/

theorem enqueue_unnoticed (p : Port) (w : Work) (s : State) : Unnoticed s (enqueue p w s) :=
  (enqueue_only p w s).unnoticed (by decide)

theorem undoEntry_unnoticed (e : Entry) (s : State) : Unnoticed s (undoEntry e s) := by
  unfold undoEntry
  split
  · exact setSlot_unnoticed rfl rfl
  · exact .refl s

theorem removeEntry_unnoticed (p : Port) (s : State) : Unnoticed s (removeEntry p s) := by
  have removed := fun q => (setQueue_only q s).unnoticed (by decide)
  simp only [removeEntry]
  split
  · exact (removed _).trans (undoEntry_unnoticed _ _)
  · exact removed _

theorem handOutEnd_unnoticed (e : Entry) (x : CommitResult) (s : State) : Unnoticed s (handOutEnd e x s) := by
  unfold handOutEnd
  split
  · exact .refl s
  · exact (((setResult_only e.port (some x) s).unnoticed (by decide)).trans (setSession_unnoticed _ _ _)).trans
      (setFlags_unnoticed rfl)

theorem ended_unnoticed (e : Entry) (x : CommitResult) (s : State) : Unnoticed s (engineIdle (handOutEnd e x s)) :=
  (handOutEnd_unnoticed e x s).trans (setEngine_unnoticed _ _)

theorem failRecord_unnoticed (e : Entry) (r : RecNo) (c : ResultCode) (s : State) : Unnoticed s (failRecord e r c s) :=
  ended_unnoticed e _ s

theorem failLayout_unnoticed (e : Entry) (c : ResultCode) (s : State) : Unnoticed s (failLayout e c s) :=
  (undoEntry_unnoticed e s).trans (ended_unnoticed e _ _)

theorem failFault_unnoticed (e : Entry) (s : State) : Unnoticed s (failFault e s) := by
  unfold failFault
  split
  · exact failRecord_unnoticed e _ _ s
  · exact failLayout_unnoticed e _ s

theorem askStep_unnoticed (st : EngineStep) (n : Nat) (s : State) : Unnoticed s (askStep st n s) :=
  (askStep_only st n s).unnoticed (by decide)

theorem stepFailed_unnoticed (e : Entry) (st : EngineStep) (s : State) : Unnoticed s (stepFailed e st s) := by
  have asks := fun st n => askStep_unnoticed st n s
  have fails := failFault_unnoticed e s
  unfold stepFailed stepExhausted
  repeat' split
  exacts [asks _ _, fails, asks _ _, fails, asks _ _, fails]

theorem takeStaged_unnoticed (p : Port) (r : RecNo) (s : State) : Unnoticed s (takeStaged p r s) :=
  Only.unnoticed (h := { engine := true, sessions := true }) (.ofEq rfl) (by decide)

theorem startEntry_unnoticed (e : Entry) (s : State) : Unnoticed s (startEntry e s) := by
  have begun : Unnoticed s (setEngine { Engine.reset with state := .check, entry := some e }
      (setSession e.port { sessionOf s e.port with state := .programming } s)) :=
    (setSession_unnoticed _ _ s).trans (setEngine_unnoticed _ _)
  obtain ⟨p, w⟩ := e
  cases w with
  | record r cond base =>
    have taken := begun.trans (takeStaged_unnoticed p r _)
    simp only [startEntry, startRecord]
    split
    · exact taken.trans (failRecord_unnoticed _ _ _ _)
    · exact taken.trans (failRecord_unnoticed _ _ _ _)
    · exact (taken.trans (setEngine_unnoticed _ _)).trans (askStep_unnoticed _ _ _)
  | layout op =>
    simp only [startEntry, startLayout]
    split
    · exact (begun.trans (setEngine_unnoticed _ _)).trans (failLayout_unnoticed _ _ _)
    · exact ((begun.trans (setEngine_unnoticed _ _)).trans (setEngine_unnoticed _ _)).trans (askStep_unnoticed _ _ _)

theorem raiseResetSeen_unnoticed (p : Port) (s : State) : Unnoticed s (raiseResetSeen p s) := setFlags_unnoticed rfl

theorem raiseSupplyWarn_unnoticed (p : Port) (s : State) : Unnoticed s (raiseSupplyWarn p s) := setFlags_unnoticed rfl

theorem raiseLayoutChanged_unnoticed (p : Port) (s : State) : Unnoticed s (raiseLayoutChanged p s) :=
  setFlags_unnoticed rfl

theorem endMount_unnoticed (d : DeviceState) (s : State) : Unnoticed s (endMount d s) := by
  have released : Only { arbiters := true, mount := true, device := true } s
      (setMount .idle (setDevice d { s with arbiters := ⟨Arbiter.reset, Arbiter.reset⟩ })) := .ofEq rfl
  have seen := (released.unnoticed (by decide)).trans (.forPorts raiseResetSeen_unnoticed _)
  simp only [endMount]
  split
  · exact (seen.trans (setRc_unnoticed _ _)).trans (.forPorts raiseSupplyWarn_unnoticed _)
  · exact seen

theorem mountOn_unnoticed (r : RecNo) (s : State) : Unnoticed s (mountOn r s) := by
  unfold mountOn
  split
  · exact (setMount_only _ s).unnoticed (by decide)
  · exact endMount_unnoticed _ s

end Sys2Proof.Machine

namespace Sys2Proof.Machine

open Sys2Proof

/-! ## What writes the queues and the watch sets -/

theorem noticesOk_of_eq {s t : State} (hn : t.notices = s.notices) (hf : t.flags = s.flags) (h : NoticesOk s) :
    NoticesOk t := fun p => by
  rw [hn, hf]
  exact h p

/-- One port's queue changes, and no other port's NOTICE_PENDING. -/
theorem noticesOk_of_port {s t : State} {p : Port} {x : List Notice} (hn : t.notices = s.notices.set p x)
    (hf : ∀ q, q ≠ p → (t.flags.get q).noticePending = (s.flags.get q).noticePending)
    (hx : NoticesAt x (t.flags.get p).noticePending) (h : NoticesOk s) : NoticesOk t := fun q => by
  by_cases hq : q = p
  · subst hq
    rw [hn, PerPort.get_set_self]
    exact hx
  · rw [hn, PerPort.get_set_ne _ _ _ _ hq, hf q hq]
    exact h q

theorem setNotices_noticesOk {p : Port} {x : List Notice} {s : State} (hx : NoticesAt x (!x.isEmpty))
    (h : NoticesOk s) : NoticesOk (setNotices p x s) :=
  noticesOk_of_port rfl (fun q hq => by rw [setNotices_flags, PerPort.get_set_ne _ _ _ _ hq])
    (by rw [setNotices_flags, PerPort.get_set_self]; exact hx) h

/-- The queue of a port becomes a part of itself (R114, R118, R119). -/
theorem setNotices_sublist_noticesOk {p : Port} {x : List Notice} {s : State} (hx : x.Sublist (s.notices.get p))
    (h : NoticesOk s) : NoticesOk (setNotices p x s) := setNotices_noticesOk ((h.atPort p).sublist hx) h

/-- One port's queue changes, for records that the port watches. -/
theorem watchOk_of_port {s t : State} {p : Port} {x : List Notice} (hd : t.dir = s.dir)
    (hn : t.notices = s.notices.set p x) (hx : ∀ n ∈ x, (slotOf s n.record).watch.get p = true) (h : WatchOk s) :
    WatchOk t := by
  have slots := slotOf_congr hd
  obtain ⟨reads, watches⟩ := h
  refine ⟨fun r q => by rw [slots]; exact reads r q, fun q n hq => ?_⟩
  rw [slots]
  rw [hn, PerPort.get_set] at hq
  split at hq
  · subst_vars; exact hx n hq
  · exact watches q n hq

theorem setNotices_heeds {p : Port} {x : List Notice} {s : State} (hx : x.Sublist (s.notices.get p)) :
    Heeds s (setNotices p x s) :=
  ⟨setNotices_sublist_noticesOk hx, fun h =>
    watchOk_of_port (s := s) rfl rfl (fun _ hn => h.watched (hx.subset hn)) h⟩

theorem dropNotice_heeds (r : RecNo) (p : Port) (s : State) : Heeds s (dropNotice r p s) :=
  setNotices_heeds List.filter_sublist

theorem Heeds.forPorts {f : Port → State → State} (x : ∀ p s, Heeds s (f p s)) (s : State) : Heeds s (forPorts f s) :=
  (((x _ _).trans (x _ _)).trans (x _ _)).trans (x _ _)

/-! ### The posting of a commit (R116) -/

/-- A posting leaves at most eight notices, one for a record. -/
theorem posting_noticesAt (n : Notice) {x : List Notice × Flags} (h : NoticesAt x.1 x.2.noticePending) :
    NoticesAt (posting n x).1 (posting n x).2.noticePending := by
  obtain ⟨room, once, pending⟩ := h
  unfold posting
  split
  · rename_i found
    obtain ⟨m, hm, -⟩ := found
    have records : (x.1.map fun m => if m.record = n.record then n else m).map Notice.record = x.1.map Notice.record := by
      rw [List.map_map]
      refine List.map_congr_left fun m _ => ?_
      simp only [Function.comp]
      split
      · exact Eq.symm ‹_›
      · rfl
    exact ⟨by simpa using room, records ▸ once, by simpa using List.ne_nil_of_mem hm⟩
  · rename_i fresh
    split
    · rename_i short
      refine ⟨by simpa using short, ?_, by simp⟩
      rw [List.map_append, List.map_singleton, List.nodup_append]
      refine ⟨once, by simp, fun a ha b hb => ?_⟩
      obtain ⟨m, hm, rfl⟩ := List.mem_map.mp ha
      obtain rfl := List.mem_singleton.mp hb
      exact fun hr => fresh ⟨m, hm, hr⟩
    · exact ⟨room, once, pending⟩

theorem mem_posting {n m : Notice} {x : List Notice × Flags} (h : m ∈ (posting n x).1) : m = n ∨ m ∈ x.1 := by
  unfold posting at h
  repeat' split at h
  · obtain ⟨m', hm, rfl⟩ := List.mem_map.mp h
    split
    · exact .inl rfl
    · exact .inr hm
  · rcases List.mem_append.mp h with hm | hm
    · exact .inr hm
    · exact .inl (List.mem_singleton.mp hm)
  · exact .inr h

/-- A notice is posted to a watcher of its record. -/
theorem postNotice_heeds {n : Notice} {p : Port} {s : State} (hw : (slotOf s n.record).watch.get p = true) :
    Heeds s (postNotice n p s) := by
  rw [postNotice_eq]
  refine ⟨fun h => noticesOk_of_port (s := s) rfl (fun q hq => ?_) ?_ h,
    fun h => watchOk_of_port (s := s) rfl rfl (fun m hm => ?_) h⟩
  · simp only [PerPort.get_set_ne _ _ _ _ hq]
  · simp only [PerPort.get_set_self]
    exact posting_noticesAt n (h.atPort p)
  · rcases mem_posting hm with rfl | hm
    · exact hw
    · exact h.watched hm

theorem postNotices_heeds (r : RecNo) (g : Gen) (p : Port) (s : State) : Heeds s (postNotices r g p s) := by
  refine Heeds.forPorts (fun q u => ?_) s
  split
  · rename_i reached
    exact postNotice_heeds (n := ⟨r, g, p⟩) (Bool.and_eq_true_iff.mp reached).1
  · exact .refl u

/-! ### Watching (R113, R114, R115) -/

/-- A port with the right to read joins the watch set (R113). -/
theorem joinWatch_heeds {r : RecNo} {p : Port} {s : State} {e : LayoutEntry} (he : (slotOf s r).entry = some e)
    (hp : e.readSet.get p = true) :
    Heeds s (setSlot r { slotOf s r with watch := (slotOf s r).watch.set p true } s) := by
  refine ⟨noticesOk_of_eq rfl rfl, fun h => ?_⟩
  rw [watchOk_iff] at h ⊢
  intro q o
  rw [slotOf_setSlot]
  split
  · rename_i hq
    subst hq
    by_cases ho : o = p
    · subst ho
      exact ⟨fun _ => ⟨e, he, hp⟩, fun _ _ _ => PerPort.get_set_self _ _ _⟩
    · exact (h r o).of_same (PerPort.get_set_ne _ _ _ _ ho) rfl fun _ hn _ => hn
  · exact h q o

theorem slotOf_stopWatching (r q : RecNo) (p : Port) (s : State) :
    slotOf (stopWatching r p s) q =
      if r = q then { slotOf s r with watch := (slotOf s r).watch.set p false } else slotOf s q :=
  slotOf_setSlot r q _ s

theorem stopWatching_notices (r : RecNo) (p : Port) (s : State) :
    (stopWatching r p s).notices = s.notices.set p ((s.notices.get p).filter fun n => n.record ≠ r) := rfl

/-- The port leaves the watch set with its notice for the record, and nobody else is touched (R115). -/
theorem stopWatching_watchOk (r : RecNo) (p : Port) {s : State} (h : WatchOk s) : WatchOk (stopWatching r p s) := by
  rw [watchOk_iff] at h ⊢
  intro q o
  rw [slotOf_stopWatching, stopWatching_notices]
  by_cases ho : o = p
  · subst ho
    rw [PerPort.get_set_self]
    split
    · subst_vars
      exact .of_dropped (PerPort.get_set_self _ _ _)
    · exact (h q o).of_same rfl rfl fun n hn _ => (List.mem_filter.mp hn).1
  · rw [PerPort.get_set_ne _ _ _ _ ho]
    split
    · rename_i hq
      subst hq
      exact (h r o).of_same (PerPort.get_set_ne _ _ _ _ ho) rfl fun _ hn _ => hn
    · exact h q o

theorem stopWatching_heeds (r : RecNo) (p : Port) (s : State) : Heeds s (stopWatching r p s) :=
  ⟨fun h => (dropNotice_heeds r p _).notices (noticesOk_of_eq rfl rfl h), stopWatching_watchOk r p⟩

/-- A port clear empties the port's queue and takes the port out of every watch set (R125). -/
theorem leaveUnit_heeds (p : Port) (s : State) : Heeds s (clearNotices p (leaveWatchSets p s)) := by
  refine ⟨fun h => noticesOk_of_port (s := s) (x := []) rfl (fun q hq => ?_) ?_ h, fun h => ?_⟩
  · simp [clearNotices, leaveWatchSets, hq]
  · simp [clearNotices, NoticesAt]
  · rw [watchOk_iff] at h ⊢
    intro r q
    rw [show slotOf (clearNotices p (leaveWatchSets p s)) r =
        { slotOf s r with watch := (slotOf s r).watch.set p false } from Table.get_map _ _ _,
      show (clearNotices p (leaveWatchSets p s)).notices = s.notices.set p [] from rfl]
    by_cases hq : q = p
    · subst hq
      exact .of_unwatched (PerPort.get_set_self _ _ _) (by simp)
    · exact (h r q).of_same (PerPort.get_set_ne _ _ _ _ hq) rfl fun n hn _ => by
        rwa [PerPort.get_set_ne _ _ _ _ hq] at hn

/-- Before a layout nobody watches and there is no notice, and so it stays where new slots have no watchers. -/
theorem watchOk_of_blank {s t : State} (h : WatchOk s) (blank : NoneDefined s) (hn : t.notices = s.notices)
    (hw : ∀ r, (slotOf t r).watch = PortSet.empty) : WatchOk t := by
  rw [watchOk_iff] at h ⊢
  refine fun r p => .of_unwatched (by rw [hw]; exact PerPort.get_all _ _) fun n hq => ?_
  rw [hn] at hq
  exact (h r p).no_notice ((h r p).unwatched (blank r)) n hq

/-! ### The completion of a layout entry (R119, R137) -/

/-- A watcher that a new read set leaves out stops watching (R119, R137). -/
def leaveReadSet (r : RecNo) (rs : PortSet) (p : Port) (s : State) : State :=
  if (slotOf s r).watch.get p && !rs.get p then stopWatching r p s else s

theorem setAccessEffects_eq (r : RecNo) (rs ws : PortSet) (s : State) :
    setAccessEffects r rs ws s = applyWriteSet r ws (forPorts (leaveReadSet r rs) s) := rfl

theorem leaveReadSet_heeds (r : RecNo) (rs : PortSet) (p : Port) (s : State) : Heeds s (leaveReadSet r rs p s) := by
  unfold leaveReadSet
  split
  · exact stopWatching_heeds r p s
  · exact .refl s

/-- Whether a port watches a record, and its queue. -/
def watchView (r : RecNo) (s : State) (p : Port) : Bool × List Notice := ((slotOf s r).watch.get p, s.notices.get p)

/-- What a new read set makes of it. -/
def withinReadSet (r : RecNo) (rs : PortSet) (p : Port) (x : Bool × List Notice) : Bool × List Notice :=
  if x.1 = true ∧ rs.get p = false then (false, x.2.filter fun n => n.record ≠ r) else x

theorem withinReadSet_out {r : RecNo} {rs : PortSet} {p : Port} {x : Bool × List Notice}
    (h : x.1 = true ∧ rs.get p = false) :
    withinReadSet r rs p x = (false, x.2.filter fun n => n.record ≠ r) := if_pos h

theorem withinReadSet_in {r : RecNo} {rs : PortSet} {p : Port} {x : Bool × List Notice}
    (h : ¬(x.1 = true ∧ rs.get p = false)) : withinReadSet r rs p x = x := if_neg h

theorem watchView_leaveReadSet (r : RecNo) (rs : PortSet) (p q : Port) (s : State) :
    watchView r (leaveReadSet r rs p s) q = if q = p then withinReadSet r rs p (watchView r s p) else watchView r s q := by
  by_cases out : (slotOf s r).watch.get p = true ∧ rs.get p = false
  · rw [leaveReadSet, if_pos (by simpa using out), withinReadSet_out (x := watchView r s p) out, watchView,
      slotOf_stopWatching, if_pos rfl, stopWatching_notices, PerPort.get_set, PerPort.get_set]
    split <;> rfl
  · rw [leaveReadSet, if_neg (by simpa using out), withinReadSet_in (x := watchView r s p) out]
    split
    · subst_vars; rfl
    · rfl

theorem watchView_leaveReadSets (r : RecNo) (rs : PortSet) (s : State) (p : Port) :
    watchView r (forPorts (leaveReadSet r rs) s) p = withinReadSet r rs p (watchView r s p) :=
  forPorts_view (watchView r) (leaveReadSet r rs) (withinReadSet r rs)
    (fun p s q => watchView_leaveReadSet r rs p q s) s p

/-- The other slots stay, and the record's persistent part. -/
theorem leaveReadSets_slots (r : RecNo) (rs : PortSet) (s : State) :
    (slotOf (forPorts (leaveReadSet r rs) s) r).entry = (slotOf s r).entry ∧
    ∀ q, r ≠ q → slotOf (forPorts (leaveReadSet r rs) s) q = slotOf s q := by
  refine ⟨forPorts_keeps (fun s => (slotOf s r).entry) _ (fun p u => ?_) s,
    fun q hq => forPorts_keeps (fun s => slotOf s q) _ (fun p u => ?_) s⟩
  · simp only [leaveReadSet]
    split
    · rw [slotOf_stopWatching, if_pos rfl]
    · rfl
  · simp only [leaveReadSet]
    split
    · rw [slotOf_stopWatching, if_neg hq]
    · rfl

theorem withinReadSet_subset {r : RecNo} {rs : PortSet} {p : Port} {x : Bool × List Notice} {n : Notice}
    (h : n ∈ (withinReadSet r rs p x).2) : n ∈ x.2 := by
  unfold withinReadSet at h
  split at h
  · exact (List.mem_filter.mp h).1
  · exact h

/-- SET ACCESS: a watcher outside the new read set goes with its notice; one inside may read (R119, R137). -/
theorem setAccess_watchOk {s : State} (h : WatchOk s) (r : RecNo) (rs ws : PortSet) (g : Bool) :
    WatchOk (applyLayoutOp (.setAccess r rs ws g) s) := by
  simp only [applyLayoutOp, setAccessEffects_eq]
  refine (applyWriteSet_unnoticed r ws _).heeds.watch ?_
  rw [watchOk_iff] at h ⊢
  generalize hu : setSlot r { slotOf s r with
    entry := (slotOf s r).entry.map fun e => { e with readSet := rs, writeSet := ws, guarded := g } } s = u
  have changed : slotOf u r = { slotOf s r with
      entry := (slotOf s r).entry.map fun e => { e with readSet := rs, writeSet := ws, guarded := g } } := by
    rw [← hu, slotOf_setSlot_self]
  have notices : u.notices = s.notices := by rw [← hu]; rfl
  obtain ⟨entry, others⟩ := leaveReadSets_slots r rs u
  intro q p
  have sub : ∀ n ∈ (forPorts (leaveReadSet r rs) u).notices.get p, n ∈ s.notices.get p := fun n hn => by
    rw [(Prod.mk.inj (watchView_leaveReadSets r rs u p)).2] at hn
    rw [← notices]
    exact withinReadSet_subset hn
  by_cases hr : r = q
  · subst hr
    by_cases out : (slotOf s r).watch.get p = true ∧ rs.get p = false
    · have view : (watchView r u p).1 = true ∧ rs.get p = false := by rw [watchView, changed]; exact out
      obtain ⟨hw, hq⟩ := Prod.mk.inj ((watchView_leaveReadSets r rs u p).trans (withinReadSet_out view))
      rw [hq]
      exact .of_dropped hw
    · have view : ¬((watchView r u p).1 = true ∧ rs.get p = false) := by rw [watchView, changed]; exact out
      obtain ⟨hw, -⟩ := Prod.mk.inj ((watchView_leaveReadSets r rs u p).trans (withinReadSet_in view))
      rw [changed] at hw
      refine ⟨fun on => ?_, fun n hn hr => hw.trans ((h r p).watches n (sub n hn) hr)⟩
      have watched := hw.symm.trans on
      obtain ⟨e, he, -⟩ := (h r p).reads watched
      exact ⟨_, by rw [entry, changed, he]; rfl, by simpa [watched] using out⟩
  · rw [others q hr, ← hu, slotOf_setSlot_ne _ _ _ _ hr, hu]
    exact (h q p).of_same rfl rfl fun n hn _ => sub n hn

/-- DELETE: the slot is undefined, and every port's notice for the record goes (R119, R137). -/
theorem delete_watchOk {s : State} (h : WatchOk s) (r : RecNo) : WatchOk (applyLayoutOp (.delete r) s) := by
  have dir : (applyLayoutOp (.delete r) s).dir = (setSlot r Slot.undefined s).dir :=
    (Only.forPorts (h := { arbiters := true, reads := true, ports := true, notices := true, flags := true })
      (fun p u => ((refuseDeleted_only r p u).mono (by decide)).trans ((dropNotice_only r p _).mono (by decide))) _).dir rfl
  have queues : ∀ p, (applyLayoutOp (.delete r) s).notices.get p = (s.notices.get p).filter fun n => n.record ≠ r :=
    forPorts_view (fun s p => s.notices.get p) (fun p s => dropNotice r p (refuseDeleted r p s))
      (fun _ q => q.filter fun n => n.record ≠ r)
      (fun p u q => by
        rw [dropNotice, setNotices_notices, (refuseDeleted_only r p u).notices rfl, PerPort.get_set])
      (setSlot r Slot.undefined s)
  rw [watchOk_iff] at h ⊢
  intro q p
  rw [slotOf_congr dir, queues, slotOf_setSlot]
  split
  · subst_vars
    exact .of_dropped (PerPort.get_all _ _)
  · exact (h q p).of_same rfl rfl fun n hn _ => (List.mem_filter.mp hn).1

/-- DEFINE: nobody watched the slot while it was undefined. -/
theorem define_watchOk {s : State} (h : WatchOk s) {r : RecNo} (hr : (slotOf s r).entry = none) (e : LayoutEntry) :
    WatchOk (applyLayoutOp (.define r e) s) := by
  rw [watchOk_iff] at h ⊢
  intro q p
  show WatchAt q p (slotOf (setSlot r _ s) q) (s.notices.get p)
  rw [slotOf_setSlot]
  split
  · rename_i hq
    subst hq
    exact .of_unwatched (PerPort.get_all _ _) ((h r p).no_notice ((h r p).unwatched hr))
  · exact h q p

theorem applyLayoutOp_noticesOk (op : LayoutOp) {s : State} (h : NoticesOk s) : NoticesOk (applyLayoutOp op s) := by
  cases op with
  | format => exact noticesOk_of_eq rfl rfl h
  | define r e => exact noticesOk_of_eq rfl rfl h
  | delete r =>
    refine (Heeds.forPorts (fun p u => ?_) _).notices (noticesOk_of_eq (s := s) rfl rfl h)
    exact (((refuseDeleted_only r p u).unnoticed (by decide)).heeds).trans (dropNotice_heeds r p _)
  | setAccess r rs ws g =>
    simp only [applyLayoutOp, setAccessEffects_eq]
    refine ((Heeds.forPorts (leaveReadSet_heeds r rs) _).trans (applyWriteSet_unnoticed r ws _).heeds).notices ?_
    exact noticesOk_of_eq (s := s) rfl rfl h

theorem applyLayoutOp_watchOk {op : LayoutOp} {s : State} (format : op = .format → NoneDefined s)
    (define : ∀ r e, op = .define r e → (slotOf s r).entry = none) (h : WatchOk s) : WatchOk (applyLayoutOp op s) := by
  cases op with
  | format => exact watchOk_of_blank h (format rfl) rfl fun r => congrArg Slot.watch (Table.get_fill _ _)
  | define r e => exact define_watchOk h (define r e rfl) e
  | delete r => exact delete_watchOk h r
  | setAccess r rs ws g => exact setAccess_watchOk h r rs ws g

end Sys2Proof.Machine

namespace Sys2Proof.Machine

open Sys2Proof

/-! ## Requests -/

theorem refuse_heeds (p : Port) (u : State) (c : ResultCode) : Heeds u (refuse p c u) := (refuse_unnoticed p c u).heeds

theorem respond_heeds (p : Port) (c : ResultCode) (b : List Byte) (u : State) : Heeds u (respond p c b u) :=
  (respond_unnoticed p c b u).heeds

/-- A service that changes neither queues nor sets, and answers. -/
theorem Unnoticed.answered {u v : State} (x : Unnoticed u v) (p : Port) (c : ResultCode) (b : List Byte) :
    Heeds u (respond p c b v) := (x.trans (respond_unnoticed p c b v)).heeds

theorem startRead_heeds (p : Port) (k : ReadKind) (r : RecNo) (e : LayoutEntry) (c : Plane) (u : State) :
    Heeds u (startRead p k r e c u) := ((startRead_only p k r e c u).unnoticed (by decide)).heeds

theorem serveNop_heeds (p : Port) (body : List Byte) (u : State) : Heeds u (serveNop p body u) :=
  whenReady_cases (refuse_heeds p u) fun _ => respond_heeds _ _ _ _

theorem serveQueryRecord_heeds (p : Port) (body : List Byte) (u : State) : Heeds u (serveQueryRecord p body u) := by
  have no := refuse_heeds p u
  exact whenReady_cases no fun _ => withBody_cases no fun _ => respond_heeds _ _ _ _

theorem serveDeviceStatus_heeds (p : Port) (body : List Byte) (u : State) : Heeds u (serveDeviceStatus p body u) :=
  withBody_cases (refuse_heeds p u) fun _ => respond_heeds _ _ _ _

theorem serveReadRecord_heeds (p : Port) (body : List Byte) (u : State) : Heeds u (serveReadRecord p body u) := by
  have no := refuse_heeds p u
  exact whenReady_cases no fun _ => withBody_cases no fun _ => withRecord_cases no fun _ _ => refuseIf_cases no fun _ =>
    withContent_cases no fun _ => refuseIf_cases no fun _ => startRead_heeds _ _ _ _ _ _

theorem serveOpenRecord_heeds (p : Port) (body : List Byte) (u : State) : Heeds u (serveOpenRecord p body u) := by
  have no := refuse_heeds p u
  refine whenReady_cases no fun _ => whenSession_cases no <| withBody_cases no fun (r, m) =>
    withRecord_cases no fun e _ => refuseIf_cases no fun _ => refuseIf_cases no fun _ => ?_
  cases m with
  | blank => exact (setSession_unnoticed p _ u).answered _ _ _
  | copy => exact withContent_cases no fun _ => startRead_heeds _ _ _ _ _ _

theorem storeStaged_heeds (p : Port) (n o : Nat) (d : List Byte) (u : State) : Heeds u (storeStaged p n o d u) :=
  ((storeStaged_only p n o d u).unnoticed (by decide)).heeds

theorem serveStage_heeds (p : Port) (body : List Byte) (u : State) : Heeds u (serveStage p body u) := by
  have no := refuse_heeds p u
  refine whenReady_cases no fun _ => whenSession_cases no ?_
  repeat' split
  · exact storeStaged_heeds _ _ _ _ _
  · exact respond_heeds _ _ _ _
  · exact respond_heeds _ _ _ _

theorem serveAppend_heeds (p : Port) (body : List Byte) (u : State) : Heeds u (serveAppend p body u) := by
  have no := refuse_heeds p u
  exact whenReady_cases no fun _ => whenSession_cases no <| withBody_cases no fun _ => storeStaged_heeds _ _ _ _ _

theorem enqueue_heeds (p : Port) (w : Work) (u : State) : Heeds u (enqueue p w u) := (enqueue_unnoticed p w u).heeds

theorem serveCommit_heeds (p : Port) (body : List Byte) (u : State) : Heeds u (serveCommit p body u) := by
  have no := refuse_heeds p u
  refine whenReady_cases no fun _ => whenSession_cases no <| withBody_cases no fun _ => refuseIf_cases no fun _ =>
    refuseIf_cases no fun _ => refuseIf_cases no fun _ => ?_
  unfold acceptCommit
  split
  · exact enqueue_heeds _ _ _
  · exact no _

theorem serveAbandon_heeds (p : Port) (body : List Byte) (u : State) : Heeds u (serveAbandon p body u) := by
  have no := refuse_heeds p u
  refine whenReady_cases no fun _ => withBody_cases no fun _ => ?_
  split
  · exact respond_heeds _ _ _ _
  · exact (setSession_unnoticed p _ u).answered _ _ _
  · exact ((removeEntry_unnoticed p u).trans (setSession_unnoticed p _ _)).answered _ _ _
  · exact no _

theorem serveFetchCommitResult_heeds (p : Port) (body : List Byte) (u : State) :
    Heeds u (serveFetchCommitResult p body u) := by
  have no := refuse_heeds p u
  refine whenReady_cases no fun _ => withBody_cases no fun _ => ?_
  split
  · exact respond_heeds _ _ _ _
  · exact no _

theorem lockRecord_heeds (p : Port) (r : RecNo) (lease wait : Nat) (u : State) :
    Heeds u (lockRecord p r lease wait u) := by
  have set := fun l => setLock_unnoticed r l u
  simp only [lockRecord]
  repeat' split
  · exact (set _).answered _ _ _
  · exact (set _).answered _ _ _
  · exact respond_heeds _ _ _ _
  · exact refuse_heeds _ _ _
  · exact (set _).answered _ _ _

theorem serveLock_heeds (p : Port) (body : List Byte) (u : State) : Heeds u (serveLock p body u) := by
  have no := refuse_heeds p u
  exact whenReady_cases no fun _ => withBody_cases no fun _ => withRecord_cases no fun _ _ => refuseIf_cases no fun _ =>
    refuseIf_cases no fun _ => lockRecord_heeds _ _ _ _ _

theorem serveUnlock_heeds (p : Port) (body : List Byte) (u : State) : Heeds u (serveUnlock p body u) := by
  have no := refuse_heeds p u
  refine whenReady_cases no fun _ => withBody_cases no fun r => withRecord_cases no fun _ _ => ?_
  simp only [unlockRecord]
  repeat' split
  · exact (handOn_unnoticed r u).answered _ _ _
  · exact (setLock_unnoticed r _ u).answered _ _ _
  · exact no _

theorem serveFetchLockReport_heeds (p : Port) (body : List Byte) (u : State) : Heeds u (serveFetchLockReport p body u) := by
  have no := refuse_heeds p u
  exact whenReady_cases no fun _ => withBody_cases no fun _ => respond_heeds _ _ _ _

theorem serveWatch_heeds (p : Port) (body : List Byte) (u : State) : Heeds u (serveWatch p body u) := by
  have no := refuse_heeds p u
  refine whenReady_cases no fun _ => withBody_cases no fun r => withRecord_cases no fun e he =>
    refuseIf_cases no fun hp => ?_
  exact (joinWatch_heeds he (by simpa using hp)).trans (respond_heeds _ _ _ _)

theorem serveUnwatch_heeds (p : Port) (body : List Byte) (u : State) : Heeds u (serveUnwatch p body u) := by
  have no := refuse_heeds p u
  exact whenReady_cases no fun _ => withBody_cases no fun r => (stopWatching_heeds r p u).trans (respond_heeds _ _ _ _)

theorem serveFetchNotice_heeds (p : Port) (body : List Byte) (u : State) : Heeds u (serveFetchNotice p body u) := by
  have no := refuse_heeds p u
  refine whenReady_cases no fun _ => withBody_cases no fun _ => ?_
  split
  · exact no _
  · rename_i n ns hq
    have fetched : Heeds u (setNotices p ns u) := setNotices_heeds (hq ▸ List.sublist_cons_self n ns)
    exact fetched.trans (respond_heeds _ _ _ _)

theorem serveAcknowledge_heeds (p : Port) (body : List Byte) (u : State) : Heeds u (serveAcknowledge p body u) :=
  withBody_cases (refuse_heeds p u) fun named =>
    (setFlags_unnoticed (x := acknowledged (u.flags.get p) named) rfl).answered _ _ _

theorem serveSetAttentionMask_heeds (p : Port) (body : List Byte) (u : State) : Heeds u (serveSetAttentionMask p body u) :=
  withBody_cases (refuse_heeds p u) fun m => ((setMask_only p m u).unnoticed (by decide)).answered _ _ _

theorem serveFormat_heeds (p : Port) (body : List Byte) (u : State) : Heeds u (serveFormat p body u) := by
  have no := refuse_heeds p u
  exact serveLayout_cases no fun _ _ => refuseIf_cases no fun _ => acceptLayout_cases no (enqueue_heeds _ _ _)

theorem serveDefine_heeds (p : Port) (body : List Byte) (u : State) : Heeds u (serveDefine p body u) := by
  have no := refuse_heeds p u
  exact serveLayout_cases no fun _ _ => refuseIf_cases no fun _ => refuseIf_cases no fun _ => refuseIf_cases no fun _ =>
    acceptLayout_cases no (enqueue_heeds _ _ _)

theorem markDeleted_unnoticed (r : RecNo) (s : State) : Unnoticed s (markDeleted r s) :=
  Unnoticed.trans (setSlot_unnoticed (by rfl) (by rfl))
    (.forPorts (fun p u => (refuseOpen_only r p u).unnoticed (by decide)) _)

theorem serveDelete_heeds (p : Port) (body : List Byte) (u : State) : Heeds u (serveDelete p body u) := by
  have no := refuse_heeds p u
  exact serveLayout_cases no fun _ r => withRecord_cases no fun _ _ => refuseIf_cases no fun _ =>
    acceptLayout_cases no ((enqueue_heeds _ _ _).trans (markDeleted_unnoticed r _).heeds)

theorem serveSetAccess_heeds (p : Port) (body : List Byte) (u : State) : Heeds u (serveSetAccess p body u) := by
  have no := refuse_heeds p u
  exact serveLayout_cases no fun _ _ => withRecord_cases no fun _ _ => acceptLayout_cases no (enqueue_heeds _ _ _)

theorem serveRestart_heeds (p : Port) (body : List Byte) (u : State) : Heeds u (serveRestart p body u) := by
  have no := refuse_heeds p u
  exact refuseIf_cases no fun _ => refuseIf_cases no fun _ => withBody_cases no fun _ =>
    (setRc_unnoticed _ u).answered _ _ _

/-! ### Frames -/

/-- A frame itself writes only the transport state and the pin. -/
theorem frameKeeps_of_unnoticed {p : Port} {P : State → Prop} (x : ∀ {s t}, Unnoticed s t → P s → P t) :
    FrameKeeps p P where
  fall s := x ((fallFrame_only p s).unnoticed (by decide))
  clock bytes extra s := x ((clockFrame_only p bytes extra s).unnoticed (by decide))
  ends s := x ((endFrame_only p s).unnoticed (by decide))
  outcome _ s := x ((setPort_only p _ s).unnoticed (by decide))
  reply s := x ((writeReply_only p s).unnoticed (by decide))

theorem takeFrame_heeds (p : Port) (bytes : List Byte) (extra : Nat) {judge : State → State} (part : FramePart)
    (s : State) (x : ∀ u, Heeds u (judge u)) : Heeds s (takeFrame p bytes extra judge part s) where
  notices h := (frameKeeps_of_unnoticed Unnoticed.noticesOk).takeFrame h bytes extra part fun u => (x u).notices
  watch h := (frameKeeps_of_unnoticed fun y => y.heeds.watch).takeFrame h bytes extra part fun u => (x u).watch

theorem takeRequest_heeds (c : RequestCode) (p : Port) (tag : Byte) (body : List Byte) (part : FramePart)
    {serve : State → State} (s : State) (x : ∀ u, Heeds u (serve u)) :
    Heeds s (takeRequest c p tag body part serve s) := by
  have accepted : ∀ u, Heeds u (serve (acceptRequest p tag u)) := fun u =>
    ((setPort_only p _ u).unnoticed (by decide)).heeds.trans (x _)
  exact ⟨fun h => (frameKeeps_of_unnoticed Unnoticed.noticesOk).takeRequest h c tag body part
      fun u _ => (accepted u).notices,
    fun h => (frameKeeps_of_unnoticed fun y => y.heeds.watch).takeRequest h c tag body part
      fun u _ => (accepted u).watch⟩

end Sys2Proof.Machine

namespace Sys2Proof.Machine

open Sys2Proof

/-! ## Every command -/

/-- A command keeps the queues in any state, and the watch sets where the directory is in order. -/
structure Minds (s t : State) : Prop where
  notices : NoticesOk s → NoticesOk t
  watch : DirectoryInv s → WatchOk s → WatchOk t

theorem Heeds.minds {s t : State} (x : Heeds s t) : Minds s t := ⟨x.notices, fun _ => x.watch⟩

theorem Unnoticed.minds {s t : State} (x : Unnoticed s t) : Minds s t := x.heeds.minds

theorem Minds.refl (s : State) : Minds s s := (Heeds.refl s).minds

/-! ### The end of the engine's entry (R71, R137) -/

theorem completeRecord_heeds (e : Entry) (r : RecNo) (c : Plane) (g : Gen) (s : State) :
    Heeds s (completeRecord e r c g s) := by
  have stored : Unnoticed s (setSlot r { slotOf s r with content := .valid c g } s) := setSlot_unnoticed rfl rfl
  have moved := stored.trans ((moveReads_only r c _).unnoticed (by decide))
  exact ((moved.trans (handOutEnd_unnoticed e _ _)).heeds.trans (postNotices_heeds r g e.port _)).trans
    (setEngine_unnoticed _ _).heeds

/-- What follows the effects of a layout operation (R137). -/
theorem layoutEnded_unnoticed (e : Entry) (x : CommitResult) (s : State) :
    Unnoticed s (engineIdle (forPorts raiseLayoutChanged (handOutEnd e x s))) :=
  ((handOutEnd_unnoticed e x s).trans (.forPorts raiseLayoutChanged_unnoticed _)).trans (setEngine_unnoticed _ _)

/-- A layout operation completes: a FORMAT finds no slot defined, a DEFINE its own undefined (R134). -/
theorem completeLayout_minds {s : State} {p : Port} {op : LayoutOp} (he : s.engine.entry = some ⟨p, .layout op⟩)
    (c : Plane) (g : Gen) : Minds s (completeLayout ⟨p, .layout op⟩ op c g s) := by
  have ended := layoutEnded_unnoticed ⟨p, .layout op⟩
    { record := Work.record? (.layout op), kind := Work.kind (.layout op), result := .ok, generation := g }
    (applyLayoutOp op (setLayout (some ⟨c, g⟩) s))
  refine ⟨fun h => ended.noticesOk (applyLayoutOp_noticesOk op (noticesOk_of_eq (s := s) rfl rfl h)), fun hd h => ?_⟩
  refine ended.heeds.watch (applyLayoutOp_watchOk (fun hop => ?_) (fun r e hop => ?_) h)
  · subst hop
    exact hd.formatEmpty he
  · subst hop
    obtain ⟨undefined, -⟩ := hd.defineLink he
    exact undefined

theorem completeEntry_minds {s : State} {e : Entry} (he : s.engine.entry = some e) : Minds s (completeEntry e s) := by
  obtain ⟨p, w⟩ := e
  unfold completeEntry
  split
  · cases w with
    | record r cond base => exact (completeRecord_heeds _ r _ _ s).minds
    | layout op => exact completeLayout_minds he _ _
  · exact .refl s

/-! ### The engine's attempts (R69, R70) -/

theorem stepPassed_minds {s : State} {e : Entry} (he : s.engine.entry = some e) (st : EngineStep) :
    Minds s (stepPassed e st s) := by
  unfold stepPassed
  split
  · exact (askStep_unnoticed _ _ s).minds
  · exact completeEntry_minds he

theorem leavePage_unnoticed (pl : Plane) (page : Nat) (x : PageBytes) (s : State) : Unnoticed s (leavePage pl page x s) :=
  (leavePage_only pl page x s).unnoticed (by decide)

theorem attempted_minds {s : State} {e : Entry} (he : s.engine.entry = some e) (st : EngineStep) (pl : Plane)
    (page : Nat) (x : PageBytes) (P : Prop) [Decidable P] :
    Minds s (if P then stepPassed e st (leavePage pl page x s) else stepFailed e st (leavePage pl page x s)) := by
  have left := (leavePage_unnoticed pl page x s).heeds
  have entry : (leavePage pl page x s).engine.entry = some e := by rw [leavePage_engine, he]
  split
  · have passed := stepPassed_minds entry st
    refine ⟨fun h => passed.notices (left.notices h), fun hd h => passed.watch ?_ (left.watch h)⟩
    exact hd.of_work (leavePage_steady pl page x s) (by rw [leavePage_engine]; exact .refl _)
  · exact (left.trans (stepFailed_unnoticed e st _).heeds).minds

theorem execEraseAttemptDone_minds {raised : PageBytes} {s t : State} (h : execEraseAttemptDone raised s = .next t) :
    Minds s t := by
  unfold execEraseAttemptDone at h
  repeat' split at h
  all_goals first | contradiction | obtain rfl := Host.Outcome.next.inj h
  · exact attempted_minds ‹_› _ _ _ _ _
  · exact .refl s
  · exact .refl s

theorem execProgramAttemptDone_minds {cleared : PageBytes} {s t : State}
    (h : execProgramAttemptDone cleared s = .next t) : Minds s t := by
  unfold execProgramAttemptDone at h
  repeat' split at h
  all_goals first | contradiction | obtain rfl := Host.Outcome.next.inj h
  · exact attempted_minds ‹_› _ _ _ _ _
  · exact .refl s
  · exact .refl s

theorem execInvalidationStep_unnoticed {cleared : PageBytes} {s t : State}
    (h : execInvalidationStep cleared s = .next t) : Unnoticed s t := by
  unfold execInvalidationStep at h
  repeat' split at h
  all_goals first | contradiction | obtain rfl := Host.Outcome.next.inj h
  · exact (leavePage_unnoticed _ _ _ s).trans (failFault_unnoticed _ _)
  · exact .refl s
  · exact .refl s

theorem execEngineStart_unnoticed {s t : State} (h : execEngineStart s = .next t) : Unnoticed s t := by
  obtain rfl := Host.Outcome.next.inj h
  repeat' split
  · exact ((setQueue_only _ s).unnoticed (by decide)).trans (startEntry_unnoticed _ _)
  · exact .refl s
  · exact .refl s

/-! ### Reads, expiries and the supply -/

theorem execReadTenureEnd_unnoticed {pl : Plane} {s t : State} (h : execReadTenureEnd pl s = .next t) :
    Unnoticed s t := by
  unfold execReadTenureEnd at h
  repeat' split at h
  all_goals first | contradiction | obtain rfl := Host.Outcome.next.inj h
  · exact (tenureEnded_unnoticed pl _ s).trans (answer_unnoticed _ _ _ _)
  · exact .refl s
  · exact .refl s
  · exact .refl s
  · exact endTenure_unnoticed pl s
  · exact .refl s

theorem execOpenCopyLoad_unnoticed {pl : Plane} {s t : State} (h : execOpenCopyLoad pl s = .next t) : Unnoticed s t := by
  unfold execOpenCopyLoad at h
  repeat' split at h
  all_goals first | contradiction | obtain rfl := Host.Outcome.next.inj h
  · exact (tenureEnded_unnoticed pl _ s).trans (answer_unnoticed _ _ _ _)
  · exact ((tenureEnded_unnoticed pl _ s).trans (setSession_unnoticed _ _ _)).trans (answer_unnoticed _ _ _ _)
  · exact .refl s
  · exact .refl s
  · exact .refl s
  · exact endTenure_unnoticed pl s
  · exact .refl s

theorem execLeaseExpiry_unnoticed {r : RecNo} {s t : State} (h : execLeaseExpiry r s = .next t) : Unnoticed s t := by
  obtain rfl := Host.Outcome.next.inj h
  repeat' split
  · exact (leaseLost_unnoticed _ r s).trans (handOn_unnoticed r _)
  · exact .refl s
  · exact .refl s

theorem execWaitExpiry_unnoticed {r : RecNo} {p : Port} {s t : State} (h : execWaitExpiry r p s = .next t) :
    Unnoticed s t := by
  obtain rfl := Host.Outcome.next.inj h
  split
  · exact (setLock_unnoticed r _ s).trans (timedOut_unnoticed p r _)
  · exact .refl s

theorem execSupplyWarningRaised_unnoticed {s t : State} (h : execSupplyWarningRaised s = .next t) : Unnoticed s t := by
  obtain rfl := Host.Outcome.next.inj h
  repeat' split
  · exact .refl s
  · exact setRc_unnoticed _ s
  · exact setRc_unnoticed _ s
  · exact (setRc_unnoticed _ s).trans (.forPorts raiseSupplyWarn_unnoticed _)

/-! ### Port clear, resets and mount -/

theorem clearPort_heeds (p : Port) (s : State) : Heeds s (clearPort p s) := by
  have reads : Unnoticed s (clearRead p (clearTransport p s)) :=
    ((setPort_only p _ s).unnoticed (by decide)).trans ((clearRead_only p _).unnoticed (by decide))
  have session : ∀ u, Unnoticed u (clearSession p u) := fun u => by
    refine Unnoticed.trans ?_ (setSession_unnoticed p _ _)
    split
    · exact removeEntry_unnoticed p u
    · exact .refl u
  have engine := (reads.trans (session _)).trans ((detachEntry_only p _).unnoticed (by decide))
  have locks := (engine.trans ((setResult_only p none _).unnoticed (by decide))).trans (clearLocks_unnoticed p _)
  exact locks.heeds.trans (leaveUnit_heeds p _)

theorem execPortClear_heeds {p : Port} {s t : State} (h : execPortClear p s = .next t) : Heeds s t := by
  have low : Only { clearLow := true } s { s with clearLow := s.clearLow.set p true } := .ofEq rfl
  obtain rfl := Host.Outcome.next.inj h
  simp only
  repeat' split
  · exact .refl s
  · exact (low.unnoticed (by decide)).heeds
  · exact (low.unnoticed (by decide)).heeds.trans (clearPort_heeds p _)

theorem findChipSelect_unnoticed (p : Port) (low : Bool) (s : State) : Unnoticed s (findChipSelect p low s) :=
  Only.unnoticed (h := { ports := true, csLow := true }) (.ofEq rfl) (by decide)

/-- After a reset the queues and the watch sets are empty. -/
theorem deviceReset_heeds (src : ResetSource) (cut : PageBytes) (s : State) : Heeds s (deviceReset src cut s) := by
  obtain ⟨-, -, notices, -, -, -, -, -, -, -, -, -, watch, -⟩ := resetHoldsTheInvariants
  have same : Unnoticed State.reset (deviceReset src cut s) := ⟨rfl, fun _ => rfl, fun _ => rfl, fun _ => rfl⟩
  exact ⟨fun _ => same.noticesOk notices, fun _ => same.heeds.watch watch⟩

theorem execMountStart_unnoticed {s t : State} (h : execMountStart s = .next t) : Unnoticed s t := by
  obtain rfl := Host.Outcome.next.inj h
  split
  · exact Only.unnoticed (h := { arbiters := true, rc := true, mount := true }) (.ofEq rfl) (by decide)
  · exact .refl s

/-- Before the layout is selected no slot is defined, and the slots it defines have no watchers (R147). -/
theorem execMountLayoutSelected_minds {s t : State} (h : execMountLayoutSelected s = .next t) : Minds s t := by
  obtain rfl := Host.Outcome.next.inj h
  split
  · rename_i hm
    split
    · exact (endMount_unnoticed _ s).minds
    · exact (endMount_unnoticed _ s).minds
    · rename_i v entries _
      have loaded : Minds s (mounted s v entries) := by
        refine ⟨noticesOk_of_eq rfl rfl, fun hd h => ?_⟩
        obtain ⟨-, blank⟩ := hd.blank (.inl ⟨hd.mounting_of_mount (by simp [hm]), .inr hm⟩)
        exact watchOk_of_blank h blank rfl fun r => by rw [slotOf_mounted]; rfl
      have goes : ∀ {t}, Unnoticed (mounted s v entries) t → Minds s t := fun x =>
        ⟨fun h => x.noticesOk (loaded.notices h), fun hd h => x.heeds.watch (loaded.watch hd h)⟩
      dsimp only
      split
      · exact goes ((setMount_only _ _).unnoticed (by decide))
      · exact goes (endMount_unnoticed _ _)
  · exact .refl s

theorem execMountSlotSet_unnoticed {s t : State} (h : execMountSlotSet s = .next t) : Unnoticed s t := by
  unfold execMountSlotSet at h
  repeat' split at h
  all_goals first | contradiction | obtain rfl := Host.Outcome.next.inj h
  · exact Unnoticed.trans (setSlot_unnoticed (by rfl) (by rfl)) (mountOn_unnoticed _ _)
  · exact .refl s
  · exact endMount_unnoticed _ s
  · exact .refl s

theorem exec_minds {i : Instr} {s t : State} (h : exec i s = .next t) : Minds s t := by
  have request : ∀ {c p tag body part serve}, (∀ u, Heeds u (serve u)) →
      (.next (takeRequest c p tag body part serve s) : Host.Outcome State Fault Refusal) = .next t → Minds s t :=
    fun x ht => Host.Outcome.next.inj ht ▸ (takeRequest_heeds _ _ _ _ _ s x).minds
  have frame : ∀ {p bytes extra judge part}, (∀ u, Heeds u (judge u)) →
      (.next (takeFrame p bytes extra judge part s) : Host.Outcome State Fault Refusal) = .next t → Minds s t :=
    fun x ht => Host.Outcome.next.inj ht ▸ (takeFrame_heeds _ _ _ _ s x).minds
  cases i with
  | nop p tag body part => exact request (serveNop_heeds p body) h
  | queryRecord p tag body part => exact request (serveQueryRecord_heeds p body) h
  | readRecord p tag body part => exact request (serveReadRecord_heeds p body) h
  | deviceStatus p tag body part => exact request (serveDeviceStatus_heeds p body) h
  | openRecord p tag body part => exact request (serveOpenRecord_heeds p body) h
  | stage p tag body part => exact request (serveStage_heeds p body) h
  | append p tag body part => exact request (serveAppend_heeds p body) h
  | commit p tag body part => exact request (serveCommit_heeds p body) h
  | abandon p tag body part => exact request (serveAbandon_heeds p body) h
  | fetchCommitResult p tag body part => exact request (serveFetchCommitResult_heeds p body) h
  | lock p tag body part => exact request (serveLock_heeds p body) h
  | unlock p tag body part => exact request (serveUnlock_heeds p body) h
  | fetchLockReport p tag body part => exact request (serveFetchLockReport_heeds p body) h
  | watch p tag body part => exact request (serveWatch_heeds p body) h
  | unwatch p tag body part => exact request (serveUnwatch_heeds p body) h
  | fetchNotice p tag body part => exact request (serveFetchNotice_heeds p body) h
  | acknowledge p tag body part => exact request (serveAcknowledge_heeds p body) h
  | setAttentionMask p tag body part => exact request (serveSetAttentionMask_heeds p body) h
  | format p tag body part => exact request (serveFormat_heeds p body) h
  | define p tag body part => exact request (serveDefine_heeds p body) h
  | delete p tag body part => exact request (serveDelete_heeds p body) h
  | setAccess p tag body part => exact request (serveSetAccess_heeds p body) h
  | restart p tag body part => exact request (serveRestart_heeds p body) h
  | fetch p sent part => exact frame Heeds.refl h
  | poll p sent part => exact frame Heeds.refl h
  | frameError p bytes extra part =>
    simp only [exec, execFrameError] at h
    split at h
    · exact frame (fun u => ((setPort_only p _ u).unnoticed (by decide)).heeds) h
    · exact frame Heeds.refl h
  | readTenureEnd pl => exact (execReadTenureEnd_unnoticed h).minds
  | openCopyLoad pl => exact (execOpenCopyLoad_unnoticed h).minds
  | engineStart => exact (execEngineStart_unnoticed h).minds
  | eraseAttemptDone raised => exact execEraseAttemptDone_minds h
  | programAttemptDone cleared => exact execProgramAttemptDone_minds h
  | invalidationStep cleared => exact (execInvalidationStep_unnoticed h).minds
  | timebasePeriodEnd =>
    obtain rfl := Host.Outcome.next.inj h
    exact (Only.unnoticed (h := { locks := true }) (.ofEq rfl) (by decide)).minds
  | leaseExpiry r => exact (execLeaseExpiry_unnoticed h).minds
  | waitExpiry r p => exact (execWaitExpiry_unnoticed h).minds
  | supplyWarningRaised => exact (execSupplyWarningRaised_unnoticed h).minds
  | supplyWarningRemoved =>
    obtain rfl := Host.Outcome.next.inj h
    split
    · exact (setRc_unnoticed _ s).minds
    · exact .refl s
  | portClear p => exact (execPortClear_heeds h).minds
  | portClearRelease p csLow =>
    obtain rfl := Host.Outcome.next.inj h
    split
    · have high : Only { clearLow := true } s { s with clearLow := s.clearLow.set p false } := .ofEq rfl
      exact ((high.unnoticed (by decide)).trans (findChipSelect_unnoticed p csLow _)).minds
    · exact .refl s
  | powerOnReset cut => exact Host.Outcome.next.inj h ▸ (deviceReset_heeds _ cut s).minds
  | supplyReset cut => exact Host.Outcome.next.inj h ▸ (deviceReset_heeds _ cut s).minds
  | pinReset cut =>
    obtain rfl := Host.Outcome.next.inj h
    split
    · exact .refl s
    · exact (deviceReset_heeds _ cut s).minds
  | restartReset cut =>
    obtain rfl := Host.Outcome.next.inj h
    split
    · exact (deviceReset_heeds _ cut s).minds
    · exact .refl s
  | resetRelease straps csLow =>
    obtain rfl := Host.Outcome.next.inj h
    split
    · have found := fun p u => findChipSelect_unnoticed p (csLow.get p) u
      exact ((setRc_unnoticed _ s).trans (.forPorts found _)).minds
    · exact .refl s
  | mountStart => exact (execMountStart_unnoticed h).minds
  | mountLayoutSelected => exact execMountLayoutSelected_minds h
  | mountSlotSet => exact (execMountSlotSet_unnoticed h).minds
  | sourceLetsGo src =>
    obtain rfl := Host.Outcome.next.inj h
    split
    · exact (setRc_unnoticed _ s).minds
    · exact .refl s

/-- Settles O53: few commands write a queue or a watch or read set, and each of them keeps the queue short, without a
second notice for a record, and within the watch sets, which it keeps within the read sets. -/
theorem noticesStayOk : Obligations.NoticesStayOk := by
  intro s s' hs
  rcases step_cases hs with ⟨-, rfl⟩ | ⟨i, rest, -, hx⟩
  · exact ⟨id, fun _ => id⟩
  · have minds := exec_minds hx
    exact ⟨minds.notices, minds.watch⟩

end Sys2Proof.Machine

namespace Sys2Proof.Machine

open Sys2Proof

/-! ## WATCH and UNWATCH (R113, R114) -/

theorem exec_watch {s : State} {p : Port} (tag : Byte) {body : List Byte} (h : CanServe s p) (hb : body.length ≤ 252) :
    exec (.watch p tag body) s = .next (writeReply p (serveWatch p body (awaiting s p tag body))) :=
  congrArg Host.Outcome.next (takeRequest_accepted _ _ _ _ _ _ h.1 hb)

theorem exec_unwatch {s : State} {p : Port} (tag : Byte) {body : List Byte} (h : CanServe s p) (hb : body.length ≤ 252) :
    exec (.unwatch p tag body) s = .next (writeReply p (serveUnwatch p body (awaiting s p tag body))) :=
  congrArg Host.Outcome.next (takeRequest_accepted _ _ _ _ _ _ h.1 hb)

section Watched

variable {p : Port} {u : State} {body : List Byte} {r : RecNo} {e : LayoutEntry} (hd : u.device = .ready)

include hd

theorem serveWatch_range (hb : recordBody body = none) : serveWatch p body u = refuse p .range u := by
  simp [serveWatch, hd, hb]

theorem serveWatch_undefined (hb : recordBody body = some r) (he : (slotOf u r).entry = none) :
    serveWatch p body u = refuse p .noRecord u := by
  simp [serveWatch, hd, hb, he]

theorem serveWatch_noAccess (hb : recordBody body = some r) (he : (slotOf u r).entry = some e)
    (hr : e.readSet.get p = false) : serveWatch p body u = refuse p .noAccess u := by
  simp [serveWatch, hd, hb, he, hr]

theorem serveWatch_taken (hb : recordBody body = some r) (he : (slotOf u r).entry = some e)
    (hr : e.readSet.get p = true) :
    serveWatch p body u = respond p .ok (watchReport u r ((slotOf u r).watch.get p))
      (setSlot r { slotOf u r with watch := (slotOf u r).watch.set p true } u) := by
  simp [serveWatch, hd, hb, he, hr]

theorem serveUnwatch_range (hb : recordBody body = none) : serveUnwatch p body u = refuse p .range u := by
  simp [serveUnwatch, hd, hb]

theorem serveUnwatch_taken (hb : recordBody body = some r) :
    serveUnwatch p body u = respond p .ok
      [boolByte ((slotOf u r).watch.get p), boolByte ((u.notices.get p).any fun n => decide (n.record = r))]
      (stopWatching r p u) := by
  simp [serveUnwatch, hd, hb]

end Watched

/-- NOTICE_PENDING as the statements write it. -/
theorem not_isEmpty_eq_decide (q : List Notice) : (!q.isEmpty) = decide (q ≠ []) := by cases q <;> rfl

/-- Whether a queue has a notice for a record, as UNWATCH answers it (R114, R182). -/
theorem boolByte_noticed (q : List Notice) (r : RecNo) [Decidable (∃ n ∈ q, n.record = r)] :
    boolByte (q.any fun n => decide (n.record = r)) = if ∃ n ∈ q, n.record = r then 1 else 0 := by
  simp [boolByte]

/-- A port's queue changes: NOTICE_PENDING follows it, and nothing else changes (R120). -/
theorem setNotices_eq (p : Port) (q : List Notice) (s : State) :
    setNotices p q s = { s with
      notices := s.notices.set p q
      flags := s.flags.set p { s.flags.get p with noticePending := decide (q ≠ []) } } := by
  rw [setNotices, not_isEmpty_eq_decide]

/-- Settles O25: the body, then the checks of WATCH in order, then the port's leaving of watch set and queue. -/
theorem watchSetsChange : Obligations.WatchSetsChange := by
  refine fun s p tag h => ⟨fun body hl hb => ⟨?_, ?_⟩, fun r => ?_⟩
  · rw [exec_watch tag h hl, serveWatch_range (u := awaiting s p tag body) h.2 (recordBody_none hb), refuse_awaiting_self]
  · rw [exec_unwatch tag h hl, serveUnwatch_range (u := awaiting s p tag body) h.2 (recordBody_none hb),
      refuse_awaiting_self]
  have body := recordBody_recByte r
  have watch := exec_watch tag (body := [recByte r]) h (by simp)
  refine ⟨fun he => ?_, fun e he hr => ?_, fun e he hr => ?_, ?_⟩
  · rw [watch, serveWatch_undefined (u := awaiting s p tag _) h.2 body he, refuse_awaiting_self]
  · rw [watch, serveWatch_noAccess (u := awaiting s p tag _) h.2 body he hr, refuse_awaiting_self]
  · rw [watch, serveWatch_taken (u := awaiting s p tag _) h.2 body he hr]
    exact congrArg Host.Outcome.next (respond_awaiting p tag [recByte r] _ _ s _ rfl)
  · rw [exec_unwatch tag h (by simp), serveUnwatch_taken (u := awaiting s p tag _) h.2 body, boolByte_noticed,
      stopWatching, dropNotice, setNotices_eq]
    exact congrArg Host.Outcome.next (respond_awaiting p tag [recByte r] _ _ s _ rfl)

/-! ## FETCH NOTICE (R118) -/

theorem exec_fetchNotice {s : State} {p : Port} (tag : Byte) {body : List Byte} (h : CanServe s p)
    (hb : body.length ≤ 252) :
    exec (.fetchNotice p tag body) s = .next (writeReply p (serveFetchNotice p body (awaiting s p tag body))) :=
  congrArg Host.Outcome.next (takeRequest_accepted _ _ _ _ _ _ h.1 hb)

section NoticeFetched

variable {p : Port} {u : State} (hd : u.device = .ready)

include hd

theorem serveFetchNotice_range {body : List Byte} (hb : body ≠ []) : serveFetchNotice p body u = refuse p .range u := by
  simp [serveFetchNotice, hd, emptyBody_none body hb]

theorem serveFetchNotice_none (hq : u.notices.get p = []) : serveFetchNotice p [] u = refuse p .none u := by
  simp [serveFetchNotice, hd, emptyBody, withBody, hq]

theorem serveFetchNotice_head {n : Notice} {ns : List Notice} (hq : u.notices.get p = n :: ns) :
    serveFetchNotice p [] u = respond p .ok (noticeReport n ns.length) (setNotices p ns u) := by
  simp [serveFetchNotice, hd, emptyBody, withBody, hq]

end NoticeFetched

/-- Settles O26: a body that the request does not take, the empty queue, and the head notice. -/
theorem noticesAreFetched : Obligations.NoticesAreFetched := by
  refine fun s p tag h => ⟨fun body hl hb => ?_, fun hq => ?_, fun n ns hq => ?_⟩
  · rw [exec_fetchNotice tag h hl, serveFetchNotice_range (u := awaiting s p tag body) h.2 hb, refuse_awaiting_self]
  · rw [exec_fetchNotice tag h (by simp), serveFetchNotice_none (u := awaiting s p tag []) h.2 hq, refuse_awaiting_self]
  · rw [exec_fetchNotice tag h (by simp), serveFetchNotice_head (u := awaiting s p tag []) h.2 hq, setNotices_eq]
    exact congrArg Host.Outcome.next (respond_awaiting p tag [] _ _ s _ rfl)

/-! ## ACKNOWLEDGE and SET ATTENTION MASK (R121, R122) -/

theorem exec_acknowledge {s : State} {p : Port} (tag : Byte) {body : List Byte} (h : CanRequest s p)
    (hb : body.length ≤ 252) :
    exec (.acknowledge p tag body) s = .next (writeReply p (serveAcknowledge p body (awaiting s p tag body))) :=
  congrArg Host.Outcome.next (takeRequest_accepted _ _ _ _ _ _ h hb)

theorem exec_setAttentionMask {s : State} {p : Port} (tag : Byte) {body : List Byte} (h : CanRequest s p)
    (hb : body.length ≤ 252) :
    exec (.setAttentionMask p tag body) s =
      .next (writeReply p (serveSetAttentionMask p body (awaiting s p tag body))) :=
  congrArg Host.Outcome.next (takeRequest_accepted _ _ _ _ _ _ h hb)

/-- The bits of a flag set's two bytes (13.2). -/
theorem flagsOfBytes_iff (lo hi : Byte) (m : Flags) :
    flagsOfBytes lo hi = some m ↔ hi.toNat < 2 ∧
      m.commitDone = lo.getLsbD 0 ∧ m.lockGranted = lo.getLsbD 1 ∧ m.lockTimeout = lo.getLsbD 2 ∧
      m.leaseLost = lo.getLsbD 3 ∧ m.noticePending = lo.getLsbD 4 ∧ m.noticeOverflow = lo.getLsbD 5 ∧
      m.layoutChanged = lo.getLsbD 6 ∧ m.supplyWarn = lo.getLsbD 7 ∧ m.resetSeen = hi.getLsbD 0 := by
  obtain ⟨commitDone, lockGranted, lockTimeout, leaseLost, noticePending, noticeOverflow, layoutChanged, supplyWarn,
    resetSeen⟩ := m
  by_cases legal : hi.toNat < 2
  · rw [flagsOfBytes, if_pos legal, Option.some.injEq, Flags.mk.injEq]
    simp only [legal, true_and, eq_comm]
  · rw [flagsOfBytes, if_neg legal]
    simp [legal]

/-- A body that spells a flag set is two bytes (R181). -/
theorem flagBody_iff (body : List Byte) (m : Flags) :
    flagBody body = some m ↔ ∃ lo hi : Byte, body = [lo, hi] ∧ flagsOfBytes lo hi = some m := by
  constructor
  · intro h
    match body with
    | [] | [_] | _ :: _ :: _ :: _ => simp [flagBody] at h
    | [lo, hi] => exact ⟨lo, hi, rfl, h⟩
  · rintro ⟨lo, hi, rfl, h⟩
    exact h

/-- Settles O27: the body refused or spelled, the two services, and the body bit by bit. -/
theorem flagsAreAcknowledged : Obligations.FlagsAreAcknowledged := by
  refine ⟨fun s p tag body h hl => ⟨fun hb => ⟨?_, ?_⟩, fun m hb => ⟨?_, ?_⟩⟩, fun body m => ?_⟩
  · rw [exec_acknowledge tag h hl, serveAcknowledge, withBody_none hb, refuse_awaiting_self]
  · rw [exec_setAttentionMask tag h hl, serveSetAttentionMask, withBody_none hb, refuse_awaiting_self]
  · rw [exec_acknowledge tag h hl, serveAcknowledge, withBody_some hb]
    exact congrArg Host.Outcome.next (respond_awaiting p tag body _ _ s _ rfl)
  · rw [exec_setAttentionMask tag h hl, serveSetAttentionMask, withBody_some hb]
    exact congrArg Host.Outcome.next (respond_awaiting p tag body _ _ s _ rfl)
  · simp only [flagBody_iff, flagsOfBytes_iff]

end Sys2Proof.Machine

namespace Sys2Proof.Machine

open Sys2Proof

/-! ## The checks that the layout requests share (R129) -/

section LayoutChecked

variable {α : Type} {p : Port} {u : State} {admitted : Bool} {operand : Option α} {own : α → State → State}
  (ha : u.rc.admin = p) (hd : admitted = true)

include ha hd

theorem serveLayout_state (hs : (u.sessions.get p).state ≠ .idle) :
    serveLayout p admitted operand own u = refuse p .state u := by
  simp [serveLayout, isAdmin, ha, hd, hs]

theorem serveLayout_range (hs : (u.sessions.get p).state = .idle) (hb : operand = none) :
    serveLayout p admitted operand own u = refuse p .range u := by
  simp [serveLayout, isAdmin, ha, hd, hs, hb]

theorem serveLayout_own {x : α} (hs : (u.sessions.get p).state = .idle) (hb : operand = some x) :
    serveLayout p admitted operand own u = own x u := by
  simp [serveLayout, isAdmin, ha, hd, hs, hb]

end LayoutChecked

section LayoutAccepted

variable {p : Port} {u : State} {op : LayoutOp} {effect : State → State}

theorem acceptLayout_power (hw : u.rc.warning = true) : acceptLayout p op effect u = refuse p .power u := by
  simp [acceptLayout, hw]

theorem acceptLayout_restarting (hw : u.rc.warning = false) (hr : u.rc.restartPending = true) :
    acceptLayout p op effect u = refuse p .restarting u := by
  simp [acceptLayout, hw, hr]

theorem acceptLayout_queued (hw : u.rc.warning = false) (hr : u.rc.restartPending = false) :
    acceptLayout p op effect u = effect (enqueue p (.layout op) u) := by
  simp [acceptLayout, hw, hr]

end LayoutAccepted

/-- The last two checks of a request that has passed its own: POWER and RESTARTING (R129). -/
theorem exec_of_acceptLayout {i : Instr} {s : State} {p : Port} {tag : Byte} {body : List Byte} {op : LayoutOp}
    {effect : State → State}
    (h : exec i s = .next (writeReply p (acceptLayout p op effect (awaiting s p tag body)))) :
    (s.rc.warning = true → exec i s = .next (answered s p tag body .power [])) ∧
    (s.rc.warning = false → s.rc.restartPending = true → exec i s = .next (answered s p tag body .restarting [])) ∧
    (s.rc.warning = false → s.rc.restartPending = false →
      exec i s = .next (writeReply p (effect (enqueue p (.layout op) (awaiting s p tag body))))) := by
  refine ⟨fun hw => ?_, fun hw hr => ?_, fun hw hr => ?_⟩
  · rw [h, acceptLayout_power (u := awaiting s p tag body) hw, refuse_awaiting_self]
  · rw [h, acceptLayout_restarting (u := awaiting s p tag body) hw hr, refuse_awaiting_self]
  · rw [h, acceptLayout_queued (u := awaiting s p tag body) hw hr]

/-- The same where the acceptance sets nothing besides: the entry joins the queue. -/
theorem exec_of_acceptLayout_id {i : Instr} {s : State} {p : Port} {tag : Byte} {body : List Byte} {op : LayoutOp}
    (h : exec i s = .next (writeReply p (acceptLayout p op id (awaiting s p tag body)))) :
    (s.rc.warning = true → exec i s = .next (answered s p tag body .power [])) ∧
    (s.rc.warning = false → s.rc.restartPending = true → exec i s = .next (answered s p tag body .restarting [])) ∧
    (s.rc.warning = false → s.rc.restartPending = false → exec i s = .next { answered s p tag body .queued [] with
      sessions := s.sessions.set p { s.sessions.get p with state := .queued }
      queue := s.queue ++ [⟨p, .layout op⟩] }) := by
  obtain ⟨power, restarting, queued⟩ := exec_of_acceptLayout h
  refine ⟨power, restarting, fun hw hr => ?_⟩
  rw [queued hw hr, id_eq, enqueue_answered]

section LayoutServed

variable {s : State} {p : Port} (tag : Byte) {body : List Byte} (h : CanRequest s p) (hb : body.length ≤ 252)

include h hb

theorem exec_format :
    exec (.format p tag body) s = .next (writeReply p (serveFormat p body (awaiting s p tag body))) :=
  congrArg Host.Outcome.next (takeRequest_accepted _ _ _ _ _ _ h hb)

theorem exec_setAccess :
    exec (.setAccess p tag body) s = .next (writeReply p (serveSetAccess p body (awaiting s p tag body))) :=
  congrArg Host.Outcome.next (takeRequest_accepted _ _ _ _ _ _ h hb)

theorem exec_define :
    exec (.define p tag body) s = .next (writeReply p (serveDefine p body (awaiting s p tag body))) :=
  congrArg Host.Outcome.next (takeRequest_accepted _ _ _ _ _ _ h hb)

theorem exec_delete :
    exec (.delete p tag body) s = .next (writeReply p (serveDelete p body (awaiting s p tag body))) :=
  congrArg Host.Outcome.next (takeRequest_accepted _ _ _ _ _ _ h hb)

theorem exec_restart :
    exec (.restart p tag body) s = .next (writeReply p (serveRestart p body (awaiting s p tag body))) :=
  congrArg Host.Outcome.next (takeRequest_accepted _ _ _ _ _ _ h hb)

end LayoutServed

/-! ## RESTART (R140) -/

section Restart

variable {p : Port} {u : State} (ha : u.rc.admin = p) (hd : u.device ≠ .mounting)

include ha hd

theorem serveRestart_range {body : List Byte} (hb : body ≠ []) : serveRestart p body u = refuse p .range u := by
  simp [serveRestart, isAdmin, ha, hd, emptyBody_none body hb]

theorem serveRestart_marked :
    serveRestart p [] u = respond p .restarting [] (setRc { u.rc with restartPending := true } u) := by
  simp [serveRestart, isAdmin, ha, hd, emptyBody, withBody]

end Restart

/-- Settles O31: the mark is set; where it was set already the new mark is the old one; and a body is refused. -/
theorem restartIsMarked : Obligations.RestartIsMarked := by
  intro s p tag h ha hd
  have marked : exec (.restart p tag []) s = .next { answered s p tag [] .restarting [] with
      rc := { s.rc with restartPending := true } } := by
    rw [exec_restart tag h (by simp), serveRestart_marked (u := awaiting s p tag []) ha hd]
    exact congrArg Host.Outcome.next (respond_awaiting p tag [] _ _ s _ rfl)
  refine ⟨marked, fun hr => ?_, fun body hl hb => ?_⟩
  · have same : { s.rc with restartPending := true } = s.rc := by rw [← hr]
    rw [marked, same]
    rfl
  · rw [exec_restart tag h hl, serveRestart_range (u := awaiting s p tag body) ha hd hb, refuse_awaiting_self]

/-! ## FORMAT and SET ACCESS (R130, R133) -/

/-- A port set's byte, bit by bit (13.2). -/
theorem spellsSet_portSetByte (set : PortSet) : SpellsSet (portSetByte set) set := by
  obtain ⟨a, b, c, d⟩ := set
  refine ⟨?_, fun q => ?_⟩
  · revert a b c d
    decide
  · cases q <;> revert a b c d <;> decide

theorem portSetOfByte_none {b : Byte} (h : 16 ≤ b.toNat) : portSetOfByte b = none := if_neg (Nat.not_lt.mpr h)

theorem guardedOfByte_none {b : Byte} (h : 2 ≤ b.toNat) : guardedOfByte b = none := by
  have b0 : b ≠ 0 := fun hb => by simp [hb] at h
  have b1 : b ≠ 1 := fun hb => by simp [hb] at h
  rw [guardedOfByte, if_neg b0, if_neg b1]

/-- A code that a record number, two port sets and a guarded byte may not have (R181). -/
theorem codes_none {rb x y g : Byte} (h : 128 ≤ rb.toNat ∨ 16 ≤ x.toNat ∨ 16 ≤ y.toNat ∨ 2 ≤ g.toNat) :
    recordOfByte rb = none ∨ portSetOfByte x = none ∨ portSetOfByte y = none ∨ guardedOfByte g = none :=
  h.imp (recordOfByte_none rb).mpr (.imp portSetOfByte_none (.imp portSetOfByte_none guardedOfByte_none))

theorem accessBody_none {body : List Byte}
    (h : body.length ≠ 4 ∨ ∃ rb x y g : Byte, body = [rb, x, y, g] ∧
      (128 ≤ rb.toNat ∨ 16 ≤ x.toNat ∨ 16 ≤ y.toNat ∨ 2 ≤ g.toNat)) : accessBody body = none := by
  rcases h with h | ⟨rb, x, y, g, rfl, h⟩
  · unfold accessBody
    split
    · simp at h
    · rfl
  · have illegal := codes_none h
    simp only [accessBody]
    split
    · simp_all
    · rfl

theorem accessBody_some (r : RecNo) (rs ws : PortSet) (g : Bool) :
    accessBody [recByte r, portSetByte rs, portSetByte ws, boolByte g] = some (r, rs, ws, g) := by
  simp [accessBody]

section FormatServed

variable {p : Port} {u : State} (ha : u.rc.admin = p) (hd : u.device ≠ .mounting)
  (hs : (u.sessions.get p).state = .idle)

include ha hd

theorem serveFormat_state {body : List Byte} (hs : (u.sessions.get p).state ≠ .idle) :
    serveFormat p body u = refuse p .state u := serveLayout_state ha (decide_eq_true hd) hs

include hs

theorem serveFormat_range {body : List Byte} (hb : body ≠ []) : serveFormat p body u = refuse p .range u :=
  serveLayout_range ha (decide_eq_true hd) hs (emptyBody_none body hb)

theorem serveFormat_inUse (hr : u.device = .ready) (hx : ∃ r, (slotOf u r).entry ≠ none) :
    serveFormat p [] u = refuse p .inUse u := by
  have empty : emptyBody [] = some () := rfl
  rw [serveFormat, serveLayout_own ha (decide_eq_true hd) hs empty]
  simp [hr, (anyDefined_iff u).mpr hx]

theorem serveFormat_taken (hx : u.device ≠ .ready ∨ ∀ r, (slotOf u r).entry = none) :
    serveFormat p [] u = acceptLayout p .format id u := by
  have fits : (decide (u.device = .ready) && anyDefined u) = false := by
    rcases hx with hx | hx
    · simp [hx]
    · have none : anyDefined u = false := by
        rw [← Bool.not_eq_true, anyDefined_iff]
        exact fun ⟨r, hr⟩ => hr (hx r)
      simp [none]
  have empty : emptyBody [] = some () := rfl
  rw [serveFormat, serveLayout_own ha (decide_eq_true hd) hs empty]
  simp only [fits, refuseIf_false]

end FormatServed

section ReadyServed

variable {p : Port} {u : State} {body : List Byte} (ha : u.rc.admin = p) (hd : u.device = .ready)

include ha hd

theorem serveSetAccess_state (hs : (u.sessions.get p).state ≠ .idle) : serveSetAccess p body u = refuse p .state u :=
  serveLayout_state ha (decide_eq_true hd) hs

theorem serveDefine_state (hs : (u.sessions.get p).state ≠ .idle) : serveDefine p body u = refuse p .state u :=
  serveLayout_state ha (decide_eq_true hd) hs

theorem serveDelete_state (hs : (u.sessions.get p).state ≠ .idle) : serveDelete p body u = refuse p .state u :=
  serveLayout_state ha (decide_eq_true hd) hs

end ReadyServed

section SetAccessServed

variable {p : Port} {u : State} {body : List Byte} (ha : u.rc.admin = p) (hd : u.device = .ready)
  (hs : (u.sessions.get p).state = .idle)

include ha hd hs

theorem serveSetAccess_range (hb : accessBody body = none) : serveSetAccess p body u = refuse p .range u :=
  serveLayout_range ha (decide_eq_true hd) hs hb

variable {r : RecNo} {rs ws : PortSet} {g : Bool} (hb : accessBody body = some (r, rs, ws, g))

include hb

theorem serveSetAccess_undefined (he : (slotOf u r).entry = none) :
    serveSetAccess p body u = refuse p .noRecord u := by
  rw [serveSetAccess, serveLayout_own ha (decide_eq_true hd) hs hb]
  simp [he]

theorem serveSetAccess_taken (he : (slotOf u r).entry ≠ none) :
    serveSetAccess p body u = acceptLayout p (.setAccess r rs ws g) id u := by
  obtain ⟨e, he⟩ := Option.ne_none_iff_exists'.mp he
  rw [serveSetAccess, serveLayout_own ha (decide_eq_true hd) hs hb]
  simp [he]

end SetAccessServed

/-- Settles O28: the bytes of a port set, FORMAT's checks, SET ACCESS's checks, and the session that is not IDLE. -/
theorem formatAndSetAccessAreQueued : Obligations.FormatAndSetAccessAreQueued := by
  refine ⟨spellsSet_portSetByte, fun s p tag h ha => ⟨fun hd hs => ⟨fun body hl hb => ?_, fun hr hx => ?_, fun hx => ?_⟩,
    fun hd hs => ⟨fun body hl hb => ?_, fun r rs ws g body hb => ?_⟩, fun hs body hl => ⟨fun hd => ?_, fun hd => ?_⟩⟩⟩
  · rw [exec_format tag h hl, serveFormat_range (u := awaiting s p tag body) ha hd hs hb, refuse_awaiting_self]
  · rw [exec_format tag h (by simp), serveFormat_inUse (u := awaiting s p tag []) ha hd hs hr hx, refuse_awaiting_self]
  · have served := exec_format tag (body := []) h (by simp)
    rw [serveFormat_taken (u := awaiting s p tag []) ha hd hs hx] at served
    exact exec_of_acceptLayout_id served
  · rw [exec_setAccess tag h hl, serveSetAccess_range (u := awaiting s p tag body) ha hd hs (accessBody_none hb),
      refuse_awaiting_self]
  · have operand : accessBody body = some (r, rs, ws, g) := hb ▸ accessBody_some r rs ws g
    have served := exec_setAccess tag (body := body) h (by simp [hb])
    refine ⟨fun he => ?_, ?_⟩
    · rw [served, serveSetAccess_undefined (u := awaiting s p tag body) ha hd hs operand he, refuse_awaiting_self]
    · have taken := serveSetAccess_taken (u := awaiting s p tag body) ha hd hs operand
      have queued := fun he => exec_of_acceptLayout_id (taken he ▸ served)
      exact ⟨fun he => (queued he).1, fun he => (queued he).2.1, fun he => (queued he).2.2⟩
  · rw [exec_format tag h hl, serveFormat_state (u := awaiting s p tag body) ha hd hs, refuse_awaiting_self]
  · refine ⟨?_, ?_, ?_⟩
    · rw [exec_setAccess tag h hl, serveSetAccess_state (u := awaiting s p tag body) ha hd hs, refuse_awaiting_self]
    · rw [exec_define tag h hl, serveDefine_state (u := awaiting s p tag body) ha hd hs, refuse_awaiting_self]
    · rw [exec_delete tag h hl, serveDelete_state (u := awaiting s p tag body) ha hd hs, refuse_awaiting_self]

end Sys2Proof.Machine

namespace Sys2Proof.Machine

open Sys2Proof

/-! ## DEFINE (R131) -/

theorem defineBody_none {body : List Byte}
    (h : body.length ≠ 7 ∨ ∃ rb len b0 b1 x y g : Byte, body = [rb, len, b0, b1, x, y, g] ∧
      (128 ≤ rb.toNat ∨ 16 ≤ x.toNat ∨ 16 ≤ y.toNat ∨ 2 ≤ g.toNat)) : defineBody body = none := by
  rcases h with h | ⟨rb, len, b0, b1, x, y, g, rfl, h⟩
  · unfold defineBody
    split
    · simp at h
    · rfl
  · have illegal := codes_none h
    simp only [defineBody]
    split
    · simp_all
    · rfl

/-- A length and base page that the body can carry come back from it (R181). -/
theorem defineBody_some (r : RecNo) {e : LayoutEntry} (hl : e.length ≤ 255) (hb : e.basePage ≤ 65535) :
    defineBody [recByte r, natByte e.length, BitVec.ofNat 8 e.basePage, BitVec.ofNat 8 (e.basePage / 256),
      portSetByte e.readSet, portSetByte e.writeSet, boolByte e.guarded] = some (r, e) := by
  have length : (natByte e.length).toNat = e.length := by
    simp only [natByte, BitVec.toNat_ofNat]
    omega
  simp [defineBody, length, pageOfBytes_ofNat _ hb]

section DefineServed

variable {p : Port} {u : State} {body : List Byte} (ha : u.rc.admin = p) (hd : u.device = .ready)
  (hs : (u.sessions.get p).state = .idle)

include ha hd hs

theorem serveDefine_range (hb : defineBody body = none) : serveDefine p body u = refuse p .range u :=
  serveLayout_range ha (decide_eq_true hd) hs hb

variable {r : RecNo} {e : LayoutEntry} (hb : defineBody body = some (r, e))

include hb

theorem serveDefine_exists (he : (slotOf u r).entry ≠ none) : serveDefine p body u = refuse p .exists u := by
  rw [serveDefine, serveLayout_own ha (decide_eq_true hd) hs hb]
  simp [Option.isSome_iff_ne_none.mpr he]

theorem serveDefine_illegal (he : (slotOf u r).entry = none) (hp : placementOk e.length e.basePage = false) :
    serveDefine p body u = refuse p .range u := by
  rw [serveDefine, serveLayout_own ha (decide_eq_true hd) hs hb]
  simp [he, hp]

theorem serveDefine_overlap (he : (slotOf u r).entry = none) (hp : placementOk e.length e.basePage = true)
    (ho : overlapsDefined u e = true) : serveDefine p body u = refuse p .overlap u := by
  rw [serveDefine, serveLayout_own ha (decide_eq_true hd) hs hb]
  simp [he, hp, ho]

theorem serveDefine_taken (he : (slotOf u r).entry = none) (hp : placementOk e.length e.basePage = true)
    (ho : overlapsDefined u e = false) : serveDefine p body u = acceptLayout p (.define r e) id u := by
  rw [serveDefine, serveLayout_own ha (decide_eq_true hd) hs hb]
  simp [he, hp, ho]

end DefineServed

/-- An extent overlaps a defined one where the two share a page number (R24). -/
theorem overlapsDefined_iff_page (s : State) (e : LayoutEntry) :
    overlapsDefined s e = true ↔ ∃ (r : RecNo) (f : LayoutEntry) (page : Nat), (slotOf s r).entry = some f ∧
      e.basePage ≤ page ∧ page < e.basePage + extentPages e.length ∧
      f.basePage ≤ page ∧ page < f.basePage + extentPages f.length := by
  have shares := fun f : LayoutEntry => extentsOverlap_iff e.basePage _ f.basePage _ (extentPages_pos e.length)
    (extentPages_pos f.length)
  rw [overlapsDefined_iff]
  refine exists_congr fun r => ?_
  cases (slotOf s r).entry with
  | none => simp [entriesOverlap]
  | some f => simp [entriesOverlap, shares f]

/-- Settles O29: the body refused, or spelled and then the checks in their order. -/
theorem definesAreQueued : Obligations.DefinesAreQueued := by
  refine fun s p tag h ha hs => ⟨fun body hl hb => ?_, fun r e body hlen hbase hb => ?_⟩
  · rw [exec_define tag h.1 hl, serveDefine_range (u := awaiting s p tag body) ha h.2 hs (defineBody_none hb),
      refuse_awaiting_self]
  have operand : defineBody body = some (r, e) := hb ▸ defineBody_some r hlen hbase
  have served := exec_define tag (body := body) h.1 (by simp [hb])
  refine ⟨fun he => ?_, fun he => ⟨fun hp => ?_, fun h1 h2 h3 h4 => ?_⟩⟩
  · rw [served, serveDefine_exists (u := awaiting s p tag body) ha h.2 hs operand he, refuse_awaiting_self]
  · have illegal : placementOk e.length e.basePage = false := by
      rw [← Bool.not_eq_true, placementOk_iff]
      exact hp
    rw [served, serveDefine_illegal (u := awaiting s p tag body) ha h.2 hs operand he illegal, refuse_awaiting_self]
  · have placed : placementOk e.length e.basePage = true := (placementOk_iff _ _).mpr ⟨h1, h2, h3, h4⟩
    refine ⟨fun ho => ?_, fun ho => ?_⟩
    · have overlaps : overlapsDefined (awaiting s p tag body) e = true := (overlapsDefined_iff_page s e).mpr ho
      rw [served, serveDefine_overlap (u := awaiting s p tag body) ha h.2 hs operand he placed overlaps,
        refuse_awaiting_self]
    · have apart : overlapsDefined (awaiting s p tag body) e = false := by
        rw [← Bool.not_eq_true]
        exact fun hx =>
          have ⟨q, f, page, hf, b1, b2, shared⟩ := (overlapsDefined_iff_page s e).mp hx
          ho q f page hf b1 b2 shared
      rw [serveDefine_taken (u := awaiting s p tag body) ha h.2 hs operand he placed apart] at served
      exact exec_of_acceptLayout_id served

end Sys2Proof.Machine

namespace Sys2Proof.Machine

open Sys2Proof

/-! ## The start of a LAYOUT entry (R128, R134, R135, R136, R138) -/

/-! ### The start checks (R134) -/

section LayoutStartChecks

variable {s : State} {r : RecNo} {e : LayoutEntry} {rs ws : PortSet} {gd : Bool}

theorem layoutStartCheck_format (h : s.device = .ready → ∀ r, (slotOf s r).entry = none) :
    layoutStartCheck s .format = none := by
  refine if_neg fun used => ?_
  rw [Bool.and_eq_true, decide_eq_true_eq, anyDefined_iff] at used
  obtain ⟨ready, r, hr⟩ := used
  exact hr (h ready r)

theorem layoutStartCheck_format_inUse (hd : s.device = .ready) (hx : ∃ r, (slotOf s r).entry ≠ none) :
    layoutStartCheck s .format = some .inUse := by
  simp [layoutStartCheck, hd, (anyDefined_iff s).mpr hx]

theorem layoutStartCheck_define (he : (slotOf s r).entry = none) (ho : overlapsDefined s e = false) :
    layoutStartCheck s (.define r e) = none := by
  simp [layoutStartCheck, he, ho]

theorem layoutStartCheck_define_exists (he : (slotOf s r).entry ≠ none) :
    layoutStartCheck s (.define r e) = some .exists := by
  simp [layoutStartCheck, Option.isSome_iff_ne_none.mpr he]

theorem layoutStartCheck_define_overlap (he : (slotOf s r).entry = none) (ho : overlapsDefined s e = true) :
    layoutStartCheck s (.define r e) = some .overlap := by
  simp [layoutStartCheck, he, ho]

theorem layoutStartCheck_delete :
    layoutStartCheck s (.delete r) = if (slotOf s r).entry = none then some .noRecord else none := by
  cases h : (slotOf s r).entry <;> simp [layoutStartCheck, h]

theorem layoutStartCheck_setAccess :
    layoutStartCheck s (.setAccess r rs ws gd) = if (slotOf s r).entry = none then some .noRecord else none := by
  cases h : (slotOf s r).entry <;> simp [layoutStartCheck, h]

end LayoutStartChecks

/-! ### The entry started -/

/-- The head entry starts where the gate is open for it: in READY, or FORMAT outside MOUNTING (R64, R66). -/
theorem exec_layoutStart {s : State} {p : Port} {op : LayoutOp} {rest : List Entry} (hi : s.engine.state = .idle)
    (hw : s.rc.warning = false) (hr : s.rc.restartPending = false)
    (hd : s.device = .ready ∨ (op = .format ∧ s.device ≠ .mounting)) (hq : s.queue = ⟨p, .layout op⟩ :: rest) :
    exec .engineStart s = .next (startEntry ⟨p, .layout op⟩ (setQueue rest s)) := by
  have allowed := startAllowed_of s _ rest hi hw hr hq (hd.imp_right (.imp_left (congrArg Work.layout)))
  simp only [exec, execEngineStart, allowed, if_true, hq]

/-- The checks find the image of the new layout in the engine buffer (R134). -/
def imageBuilt (op : LayoutOp) (s : State) : State :=
  setEngine { s.engine with buffer := .image (Table.ofList 800 Config.blankByte
    (layoutImage (layoutTarget s op).2 (layoutAfter s op).cells)) } s

theorem startEntry_layout (p : Port) (op : LayoutOp) (s : State) :
    startEntry ⟨p, .layout op⟩ s =
      startLayout ⟨p, .layout op⟩ op (entryBegun ⟨p, .layout op⟩ s) := rfl

/-- The checks look at nothing that the building of the image writes. -/
theorem startLayout_failed {e : Entry} {op : LayoutOp} {code : ResultCode} {s : State}
    (h : layoutStartCheck s op = some code) : startLayout e op s = failLayout e code (imageBuilt op s) := by
  have failed : layoutStartCheck (imageBuilt op s) op = some code := h
  simp only [imageBuilt] at failed
  simp only [startLayout, failed, imageBuilt]

theorem startLayout_passed {e : Entry} {op : LayoutOp} {s : State} (h : layoutStartCheck s op = none) :
    startLayout e op s = askStep (firstLayoutStep op) 1 { s with engine := { s.engine with
      buffer := .image (Table.ofList 800 Config.blankByte (layoutImage (layoutTarget s op).2 (layoutAfter s op).cells))
      target := some (layoutTarget s op).1
      newGen := (layoutTarget s op).2
      basePage := (layoutPlacement op).1
      length := (layoutPlacement op).2 } } := by
  have passed : layoutStartCheck (imageBuilt op s) op = none := h
  simp only [imageBuilt] at passed
  simp only [startLayout, passed]
  rfl

/-- An undefined record has no mark for the end of its DELETE to clear (R138). -/
theorem undoEntry_undefined {s : State} {p : Port} {r : RecNo} (h : slotOf s r = Slot.undefined) :
    undoEntry ⟨p, .layout (.delete r)⟩ s = s := by
  have slots : s.dir.slots.set r Slot.undefined = s.dir.slots := Table.ext_get fun q => by
    rw [Table.get_set]
    split
    · subst_vars
      exact h.symm
    · rfl
  have cleared : { slotOf s r with deletePending := false } = Slot.undefined := by rw [h]; rfl
  rw [undoEntry_delete rfl, cleared, setSlot, slots]

/-- An entry with nothing to undo that fails a start check ends at once (R138). -/
theorem startEntry_layout_failed {s : State} {p : Port} {op : LayoutOp} {code : ResultCode}
    (h : layoutStartCheck s op = some code) (undef : ∀ r, op = .delete r → slotOf s r = Slot.undefined) :
    startEntry ⟨p, .layout op⟩ s = { s with
      sessions := s.sessions.set p Session.reset
      results := s.results.set p (some { record := Work.record? (.layout op), kind := Work.kind (.layout op)
                                         result := code, generation := layoutGeneration s })
      flags := s.flags.set p { s.flags.get p with commitDone := true }
      engine := Engine.reset } := by
  have undone : ∀ u, u.dir = s.dir → undoEntry ⟨p, .layout op⟩ u = u := fun u hu => by
    cases op with
    | delete r => exact undoEntry_undefined (by rw [slotOf, hu]; exact undef r rfl)
    | format | define | setAccess => rfl
  have begun := startLayout_failed (e := ⟨p, .layout op⟩) (s := entryBegun ⟨p, .layout op⟩ s) h
  rw [startEntry_layout, begun, failLayout]
  simp only [undone (imageBuilt op (entryBegun ⟨p, .layout op⟩ s)) rfl, handOutEnd_eq]
  simp only [imageBuilt, entryBegun, setEngine, PerPort.set_set]
  rfl

theorem startEntry_layout_passed {s : State} {p : Port} {op : LayoutOp} (h : layoutStartCheck s op = none) :
    startEntry ⟨p, .layout op⟩ s = askStep (firstLayoutStep op) 1 { s with
      sessions := s.sessions.set p { s.sessions.get p with state := .programming }
      engine := { state := .check, entry := some ⟨p, .layout op⟩, detached := false
                  target := some (layoutTarget s op).1, newGen := (layoutTarget s op).2
                  step := none, attempt := 0, basePage := (layoutPlacement op).1, length := (layoutPlacement op).2
                  buffer := .image (Table.ofList 800 0xFF
                    (layoutImage (layoutTarget s op).2 (layoutAfter s op).cells)) } } :=
  startLayout_passed (e := ⟨p, .layout op⟩) (s := entryBegun ⟨p, .layout op⟩ s) h

/-- Toward the layout copy that is not current, with the successor generation (R128). -/
theorem layoutTarget_of_layout {s : State} {v : LayoutVersion} {op : LayoutOp} (hv : s.dir.layout = some v)
    (hop : op ≠ .format) : layoutTarget s op = (v.current.other, successor v.generation) := by
  have target : targetCopy (some v.current) = v.current.other := by cases v.current <;> rfl
  cases op with
  | format => exact absurd rfl hop
  | define | delete | setAccess => simp only [layoutTarget, layoutCurrent, layoutGeneration, hv, Option.map_some, target]

/-- Settles O35: the gate is open; the checks pass and the first step is asked for, or the first that fails names the
code. -/
theorem layoutEntriesStart : Obligations.LayoutEntriesStart := by
  intro s p op rest hi hw hr hd hq
  have starts := exec_layoutStart hi hw hr hd hq
  refine ⟨fun c g st entries base len h => ?_, fun code h => ?_⟩
  · suffices passes : layoutStartCheck s op = none ∧ layoutTarget s op = (c, g) ∧ firstLayoutStep op = st ∧
        layoutAfter s op = entries ∧ layoutPlacement op = (base, len) by
      obtain ⟨passed, target, rfl, rfl, place⟩ := passes
      obtain ⟨rfl, rfl⟩ := Prod.mk.inj target
      obtain ⟨rfl, rfl⟩ := Prod.mk.inj place
      rw [starts, startEntry_layout_passed (s := setQueue rest s) passed]
      rfl
    rcases h with ⟨rfl, undef, rfl, rfl, rfl, rfl, rfl, rfl⟩ | ⟨v, hv, rfl, rfl, h⟩
    · exact ⟨layoutStartCheck_format undef, rfl, rfl, rfl, rfl⟩
    have target := fun hop => layoutTarget_of_layout (op := op) hv hop
    rcases h with ⟨r, e, rfl, he, ho, rfl, rfl, rfl, rfl⟩ | ⟨r, rfl, he, rfl, rfl, rfl, rfl⟩ |
      ⟨r, rs, ws, gd, e, rfl, he, rfl, rfl, rfl, rfl⟩
    · exact ⟨layoutStartCheck_define he ho, target (by simp), rfl, rfl, rfl⟩
    · exact ⟨layoutStartCheck_delete.trans (if_neg he), target (by simp), rfl, rfl, rfl⟩
    · refine ⟨layoutStartCheck_setAccess.trans (if_neg (by simp [he])), target (by simp), rfl, ?_, rfl⟩
      have now : (s.dir.slots.map Slot.entry).get r = some e := (Table.get_map _ _ _).trans he
      simp only [layoutAfter, now, Option.map_some]
  · have ends := fun failed undef => starts.trans (congrArg Host.Outcome.next
      (startEntry_layout_failed (s := setQueue rest s) (p := p) (op := op) (code := code) failed undef))
    rcases h with ⟨rfl, ready, hx, rfl⟩ | ⟨r, e, rfl, he, rfl⟩ | ⟨r, e, rfl, he, ho, rfl⟩ | ⟨r, rfl, he, rfl⟩ |
      ⟨r, rs, ws, gd, rfl, he, rfl⟩
    · exact ends (layoutStartCheck_format_inUse ready hx) (by simp)
    · exact ends (layoutStartCheck_define_exists he) (by simp)
    · exact ends (layoutStartCheck_define_overlap he ho) (by simp)
    · have undef : (slotOf s r).entry = none := by rw [he]; rfl
      refine ends (layoutStartCheck_delete.trans (if_pos undef)) fun q hq => ?_
      obtain rfl := LayoutOp.delete.inj hq
      exact he
    · exact ends (layoutStartCheck_setAccess.trans (if_pos he)) (by simp)

end Sys2Proof.Machine

namespace Sys2Proof.Machine

open Sys2Proof

/-! ## Reads that end because their record goes (R37, R45, R109) -/

/-- A port's transport state once a request in progress on it is answered with an empty body (R171, R173). -/
def answeredWith (c : ResultCode) (x : PortIf) : PortIf :=
  match x.inProgress with
  | some tag => { x with inProgress := none, due := none, response := some ⟨tag, c, []⟩ }
  | none => x

theorem answeredWith_inProgress {s : State} {q : Port} {tag : Byte} (c : ResultCode)
    (h : (s.ports.get q).inProgress = some tag) :
    answeredWith c (s.ports.get q) = (withResponse s q tag c []).get q := by
  simp only [answeredWith, h, withResponse, PerPort.get_set_self]

theorem answer_eq (p : Port) (c : ResultCode) (s : State) :
    answer p c [] s = { s with ports := s.ports.set p (answeredWith c (s.ports.get p)) } := by
  cases h : (s.ports.get p).inProgress with
  | none =>
    simp only [answer_idle p c [] s h, answeredWith, h, PerPort.set_get]
  | some tag =>
    rw [answer_inProgress p tag c [] s h, withResponse, answeredWith, h]

theorem withdrawRead_of_read {s : State} {p : Port} {rd : Read} (h : s.reads.get p = some rd) :
    withdrawRead p s = { s with
      reads := s.reads.set p none
      arbiters := s.arbiters.set rd.plane { s.arbiters.get rd.plane with
        waiting := (s.arbiters.get rd.plane).waiting.set p false } } := by
  simp only [withdrawRead, h]
  rfl

/-- From `s` to `t` the arbiters change in nothing but their waiting reads. -/
def WaitingOnly (s t : State) : Prop :=
  ∀ pl, t.arbiters.get pl = { s.arbiters.get pl with waiting := (t.arbiters.get pl).waiting }

theorem WaitingOnly.of_eq {s t : State} (h : t.arbiters = s.arbiters) : WaitingOnly s t := fun pl => by rw [h]

theorem WaitingOnly.trans {s t u : State} (x : WaitingOnly s t) (y : WaitingOnly t u) : WaitingOnly s u := fun pl => by
  rw [y pl, x pl]

theorem WaitingOnly.forPorts {f : Port → State → State} (h : ∀ p s, WaitingOnly s (f p s)) (s : State) :
    WaitingOnly s (forPorts f s) :=
  forPorts_induct (WaitingOnly s) f (fun p u hu => hu.trans (h p u)) s (.of_eq rfl)

/-- What a DELETE can end at a port: its read, the planes among whose waiting reads it is, its transport state. -/
structure PortView where
  read : Option Read
  waits : Plane → Bool
  port : PortIf

def portView (s : State) (q : Port) : PortView :=
  { read := s.reads.get q, waits := fun pl => (s.arbiters.get pl).waiting.get q, port := s.ports.get q }

/-- An effect on one port that leaves its view as it was. -/
theorem portView_kept {s : State} {p q : Port} {v : PortView} (h : v = portView s p) :
    portView s q = if q = p then v else portView s q := by
  split
  · subst_vars; rfl
  · rfl

namespace PortView

/-- The read has left the waiting reads of its plane and is answered with a code (R37). -/
def withdrawn (c : ResultCode) (rd : Read) (v : PortView) : PortView :=
  { read := none, waits := fun pl => v.waits pl && decide (pl ≠ rd.plane), port := answeredWith c v.port }

theorem withdrawn_waits (c : ResultCode) (rd : Read) (v : PortView) (pl : Plane) :
    (v.withdrawn c rd).waits pl = true ↔ v.waits pl = true ∧ rd.plane ≠ pl := by
  simp only [withdrawn, Bool.and_eq_true, decide_eq_true_eq, ne_comm]

end PortView

section Withdrawn

variable {s : State} {p : Port} {rd : Read} (h : s.reads.get p = some rd) (c : ResultCode)

include h

theorem answer_withdrawRead :
    answer p c [] (withdrawRead p s) = { s with
      reads := s.reads.set p none
      arbiters := s.arbiters.set rd.plane { s.arbiters.get rd.plane with
        waiting := (s.arbiters.get rd.plane).waiting.set p false }
      ports := s.ports.set p (answeredWith c (s.ports.get p)) } := by
  rw [answer_eq, withdrawRead_of_read h]

theorem portView_withdrawn (q : Port) :
    portView (answer p c [] (withdrawRead p s)) q = if q = p then (portView s p).withdrawn c rd else portView s q := by
  rw [answer_withdrawRead h]
  by_cases hq : q = p
  · subst hq
    simp only [portView, PortView.withdrawn, PerPort.get_set_self, if_true, PortView.mk.injEq, true_and, and_true]
    funext pl
    by_cases hpl : pl = rd.plane
    · subst hpl
      simp
    · simp [hpl]
  · simp only [portView, PerPort.get_set_ne _ _ _ _ hq, if_neg hq, PortView.mk.injEq, true_and, and_true]
    funext pl
    rw [PerPlane.get_set]
    split
    · subst_vars
      exact PerPort.get_set_ne _ _ _ _ hq
    · rfl

theorem withdrawn_waitingOnly : WaitingOnly s (answer p c [] (withdrawRead p s)) := fun pl => by
  rw [answer_withdrawRead h, PerPlane.get_set]
  split
  · subst_vars
    rfl
  · rfl

end Withdrawn

/-! ## DELETE (R132) -/

namespace PortView

/-- What the acceptance of the record's DELETE makes of a port (R37, R45). -/
def openRefused (r : RecNo) (v : PortView) : PortView :=
  match v.read with
  | some rd =>
    if rd.record = r ∧ rd.kind = .openCopy then
      match rd.phase with
      | .waiting => v.withdrawn .inUse rd
      | .reading => { v with read := some { rd with inUse := true } }
    else v
  | none => v

variable {r : RecNo} {v : PortView} {rd : Read}

theorem openRefused_waiting (hv : v.read = some rd) (hr : rd.record = r) (hk : rd.kind = .openCopy)
    (hw : rd.phase = .waiting) : v.openRefused r = v.withdrawn .inUse rd := by
  simp only [openRefused, hv, hr, hk, hw, and_self, if_true]

theorem openRefused_reading (hv : v.read = some rd) (hr : rd.record = r) (hk : rd.kind = .openCopy)
    (hw : rd.phase = .reading) : v.openRefused r = { v with read := some { rd with inUse := true } } := by
  simp only [openRefused, hv, hr, hk, hw, and_self, if_true]

theorem openRefused_other (h : ∀ rd, v.read = some rd → rd.record = r → rd.kind ≠ .openCopy) : v.openRefused r = v := by
  unfold openRefused
  split
  · rename_i rd hv
    exact if_neg fun ⟨hr, hk⟩ => h rd hv hr hk
  · rfl

/-- The port stays among the waiting reads of every plane but the one where an OPEN COPY of the record waited. -/
theorem openRefused_waits (pl : Plane) :
    (v.openRefused r).waits pl = true ↔ v.waits pl = true ∧
      ¬∃ rd, v.read = some rd ∧ rd.record = r ∧ rd.kind = .openCopy ∧ rd.phase = .waiting ∧ rd.plane = pl := by
  by_cases h : ∃ rd, v.read = some rd ∧ rd.record = r ∧ rd.kind = .openCopy
  · obtain ⟨rd, hv, hr, hk⟩ := h
    cases hw : rd.phase with
    | waiting => simp [openRefused_waiting hv hr hk hw, withdrawn_waits, hv, hr, hk, hw]
    | reading => simp [openRefused_reading hv hr hk hw, hv, hw]
  · rw [openRefused_other fun rd hv hr hk => h ⟨rd, hv, hr, hk⟩]
    exact (and_iff_left fun ⟨rd, hv, hr, hk, _⟩ => h ⟨rd, hv, hr, hk⟩).symm

end PortView

theorem portView_refuseOpen (r : RecNo) (p q : Port) (s : State) :
    portView (refuseOpen r p s) q = if q = p then (portView s p).openRefused r else portView s q := by
  unfold refuseOpen
  cases h : s.reads.get p with
  | none => exact portView_kept (PortView.openRefused_other fun rd hv => by simp [portView, h] at hv)
  | some rd =>
    simp only
    split
    · rename_i hop
      obtain ⟨hr, hk⟩ := hop
      cases hw : rd.phase with
      | waiting =>
        simp only [portView_withdrawn h, PortView.openRefused_waiting (v := portView s p) h hr hk hw]
      | reading =>
        rw [PortView.openRefused_reading (v := portView s p) h hr hk hw]
        simp only [portView, setRead, hw]
        split
        · subst_vars
          rw [PerPort.get_set_self]
        · rw [PerPort.get_set_ne _ _ _ _ ‹_›]
    · rename_i hop
      refine portView_kept (PortView.openRefused_other fun rd' hv hr hk => ?_)
      obtain rfl := Option.some.inj (h.symm.trans hv)
      exact hop ⟨hr, hk⟩

theorem refuseOpen_waitingOnly (r : RecNo) (p : Port) (s : State) : WaitingOnly s (refuseOpen r p s) := by
  unfold refuseOpen
  cases h : s.reads.get p with
  | none => exact .of_eq rfl
  | some rd =>
    simp only
    split
    · cases rd.phase with
      | waiting => exact withdrawn_waitingOnly h .inUse
      | reading => exact .of_eq rfl
    · exact .of_eq rfl

theorem portView_markDeleted (r : RecNo) (s : State) (q : Port) :
    portView (markDeleted r s) q = (portView s q).openRefused r :=
  forPorts_view portView (refuseOpen r) (fun _ => PortView.openRefused r) (fun p s q => portView_refuseOpen r p q s) _ q

theorem markDeleted_waitingOnly (r : RecNo) (s : State) : WaitingOnly s (markDeleted r s) :=
  WaitingOnly.forPorts (refuseOpen_waitingOnly r) (setSlot r _ s)

theorem markDeleted_only (r : RecNo) (s : State) :
    Only { arbiters := true, reads := true, ports := true } (setSlot r { slotOf s r with deletePending := true } s)
      (markDeleted r s) := Only.forPorts (refuseOpen_only r) _

section DeleteServed

variable {p : Port} {u : State} {body : List Byte} (ha : u.rc.admin = p) (hd : u.device = .ready)
  (hs : (u.sessions.get p).state = .idle)

include ha hd hs

theorem serveDelete_range (hb : recordBody body = none) : serveDelete p body u = refuse p .range u :=
  serveLayout_range ha (decide_eq_true hd) hs hb

variable {r : RecNo} (hb : recordBody body = some r)

include hb

theorem serveDelete_undefined (he : (slotOf u r).entry = none) : serveDelete p body u = refuse p .noRecord u := by
  rw [serveDelete, serveLayout_own ha (decide_eq_true hd) hs hb, withRecord_undefined he]

theorem serveDelete_inUse (he : (slotOf u r).entry ≠ none) (hx : recordInUse u r = true) :
    serveDelete p body u = refuse p .inUse u := by
  obtain ⟨e, he⟩ := Option.ne_none_iff_exists'.mp he
  rw [serveDelete, serveLayout_own ha (decide_eq_true hd) hs hb, withRecord_defined he]
  simp only [hx, refuseIf_true]

theorem serveDelete_taken (he : (slotOf u r).entry ≠ none) (hx : recordInUse u r = false) :
    serveDelete p body u = acceptLayout p (.delete r) (markDeleted r) u := by
  obtain ⟨e, he⟩ := Option.ne_none_iff_exists'.mp he
  rw [serveDelete, serveLayout_own ha (decide_eq_true hd) hs hb, withRecord_defined he]
  simp only [hx, refuseIf_false]

end DeleteServed

/-- Who keeps a record from being deleted: its own DELETE, its lock, a session on it (R132). -/
theorem recordInUse_iff (s : State) (r : RecNo) :
    recordInUse s r = true ↔ (slotOf s r).deletePending = true ∨ (lockOf s r).holder ≠ none ∨ (lockOf s r).waits ≠ [] ∨
      ∃ q, (s.sessions.get q).state ≠ .idle ∧ (s.sessions.get q).record = some r := by
  have sessions : (∃ q, (s.sessions.get q).state ≠ .idle ∧ (s.sessions.get q).record = some r) ↔
      sessionOn s r .a = true ∨ sessionOn s r .b = true ∨ sessionOn s r .c = true ∨ sessionOn s r .d = true := by
    simp only [← sessionOn_iff]
    exact ⟨fun ⟨q, hq⟩ => by cases q <;> simp [hq], by rintro (h | h | h | h) <;> exact ⟨_, h⟩⟩
  rw [sessions]
  simp only [recordInUse, Bool.or_eq_true, Option.isSome_iff_ne_none, Bool.not_eq_true', List.isEmpty_eq_false_iff]
  exact iff_of_eq (by ac_rfl)

/-- A DELETE that has joined the queue, with its response due and its record not yet marked. -/
def deleteQueued (s : State) (p : Port) (tag : Byte) (body : List Byte) (r : RecNo) : State :=
  { s with
    sessions := s.sessions.set p { s.sessions.get p with state := .queued }
    queue := s.queue ++ [⟨p, .layout (.delete r)⟩]
    ports := s.ports.set p { receiver := .idle, outcome := .accepted, inProgress := some tag,
                             due := some ⟨tag, .queued, []⟩, response := none, sdo := requestOut s p body } }

section DeleteQueued

variable {s : State} {p : Port} {tag : Byte} {body : List Byte} {r : RecNo}

theorem enqueue_delete : enqueue p (.layout (.delete r)) (awaiting s p tag body) = deleteQueued s p tag body r := by
  rw [enqueue, respond_inProgress p tag _ _ _ (by simp)]
  simp [deleteQueued, awaiting, setSession, setQueue, sessionOf]

/-- The port itself reads nothing, and its response is still due when the reads have ended. -/
theorem markDeleted_own_port (hp : s.reads.get p = none) :
    (markDeleted r (deleteQueued s p tag body r)).ports.get p = (deleteQueued s p tag body r).ports.get p := by
  have view := portView_markDeleted r (deleteQueued s p tag body r) p
  rw [PortView.openRefused_other fun rd hv => absurd (hp.symm.trans hv) (by simp)] at view
  exact congrArg PortView.port view

theorem markDeleted_other_port {q : Port} (hq : q ≠ p) :
    portView (markDeleted r (deleteQueued s p tag body r)) q = (portView s q).openRefused r := by
  rw [portView_markDeleted]
  simp only [portView, deleteQueued, PerPort.get_set_ne _ _ _ _ hq]

/-- The acceptance of a DELETE, answered. -/
theorem writeReply_markDeleted (hp : s.reads.get p = none) :
    writeReply p (markDeleted r (deleteQueued s p tag body r)) =
      setPort p ((answered s p tag body .queued []).ports.get p) (markDeleted r (deleteQueued s p tag body r)) := by
  have own := markDeleted_own_port (tag := tag) (body := body) (r := r) hp
  rw [writeReply_due p tag ⟨tag, .queued, []⟩ _ (by rw [own]; simp [deleteQueued]) (by rw [own]; simp [deleteQueued]), own]
  simp only [deleteQueued, answered, PerPort.get_set_self]
  rfl

end DeleteQueued

/-- Settles O30: the body, the checks in their order, and the acceptance port by port: every port's read goes its own
way, and the asking port, which reads nothing, is answered. -/
theorem deletesAreQueued : Obligations.DeletesAreQueued := by
  refine fun s p tag h ha hs => ⟨fun body hl hb => ?_, fun r => ?_⟩
  · rw [exec_delete tag h.1 hl, serveDelete_range (u := awaiting s p tag body) ha h.2 hs (recordBody_none hb),
      refuse_awaiting_self]
  have body := recordBody_recByte r
  have served := exec_delete tag (body := [recByte r]) h.1 (by simp)
  refine ⟨fun he => ?_, fun he => ⟨fun hx => ?_, fun mark holder waits sessions => ?_⟩⟩
  · rw [served, serveDelete_undefined (u := awaiting s p tag _) ha h.2 hs body he, refuse_awaiting_self]
  · have used : recordInUse (awaiting s p tag [recByte r]) r = true := (recordInUse_iff s r).mpr hx
    rw [served, serveDelete_inUse (u := awaiting s p tag _) ha h.2 hs body he used, refuse_awaiting_self]
  · have unused : recordInUse (awaiting s p tag [recByte r]) r = false := by
      rw [← Bool.not_eq_true]
      intro used
      rcases (recordInUse_iff s r).mp used with hx | hx | hx | ⟨q, hq, hr⟩
      · simp [mark] at hx
      · exact hx holder
      · exact hx waits
      · exact hq (sessions q hr)
    rw [serveDelete_taken (u := awaiting s p tag _) ha h.2 hs body he unused] at served
    obtain ⟨power, restarting, queued⟩ := exec_of_acceptLayout served
    refine ⟨power, restarting, fun hw hr hp => ?_⟩
    rw [enqueue_delete, writeReply_markDeleted hp] at queued
    have ended := markDeleted_only r (deleteQueued s p tag [recByte r] r)
    refine ⟨_, queued hw hr, ?_, PerPort.get_set_self _ _ _, ?_, fun pl q => ?_, fun q hq => ?_⟩
    · exact (ended.trans ((setPort_only p _ _).mono (by decide))).toEq
    · exact markDeleted_waitingOnly r (deleteQueued s p tag [recByte r] r)
    · have waits := PortView.openRefused_waits (r := r) (v := portView (deleteQueued s p tag [recByte r] r) q) pl
      rw [← portView_markDeleted] at waits
      exact waits
    · have view := markDeleted_other_port (s := s) (tag := tag) (body := [recByte r]) (r := r) hq
      rw [setPort_ports, PerPort.get_set_ne _ _ _ _ hq]
      refine ⟨fun other => ?_, fun rd tag' hrd hr hk hin => ⟨fun waits => ?_, fun reads => ?_⟩⟩
      · rw [PortView.openRefused_other (v := portView s q) other] at view
        exact ⟨congrArg PortView.read view, congrArg PortView.port view⟩
      · rw [PortView.openRefused_waiting (v := portView s q) hrd hr hk waits] at view
        exact ⟨congrArg PortView.read view, (congrArg PortView.port view).trans (answeredWith_inProgress .inUse hin)⟩
      · rw [PortView.openRefused_reading (v := portView s q) hrd hr hk reads] at view
        exact ⟨congrArg PortView.read view, congrArg PortView.port view⟩

end Sys2Proof.Machine

namespace Sys2Proof.Machine

open Sys2Proof

/-! ## A new write set at the record's lock, port by port (R88, R98) -/

/-- A port's lock report and its flags. -/
def lockView (s : State) (q : Port) : LockReport × Flags := (s.reports.get q, s.flags.get q)

/-- What a record's lock tells a port: that its wait is over, that it lost the lock, that it was granted it (R95, R120). -/
def lockEvents (r : RecNo) (out lost given : Bool) (x : LockReport × Flags) : LockReport × Flags :=
  ({ granted := if given then some r else x.1.granted
     timedOut := if out then some r else x.1.timedOut
     lost := if lost then some r else x.1.lost },
   { x.2 with
     lockTimeout := x.2.lockTimeout || out
     leaseLost := x.2.leaseLost || lost
     lockGranted := x.2.lockGranted || given })

theorem lockEvents_none (r : RecNo) (x : LockReport × Flags) : lockEvents r false false false x = x := by
  simp [lockEvents]

theorem lockEvents_lockEvents (r : RecNo) (a b c a' b' c' : Bool) (x : LockReport × Flags) :
    lockEvents r a' b' c' (lockEvents r a b c x) = lockEvents r (a || a') (b || b') (c || c') x := by
  cases a' <;> cases b' <;> cases c' <;> simp [lockEvents]

theorem lockView_expelWaiter (r : RecNo) (p q : Port) (s : State) :
    lockView (expelWaiter r p s) q = lockEvents r (decide (p = q)) false false (lockView s q) := by
  by_cases hq : p = q
  · subst hq
    simp [lockView, lockEvents, expelWaiter, raiseLockTimeout, reportTimedOut]
  · simp [lockView, lockEvents, expelWaiter, raiseLockTimeout, reportTimedOut, hq, ne_comm.mp hq]

theorem lockView_expelWaiters (r : RecNo) (q : Port) (out : List Wait) (s : State) :
    lockView (out.foldl (fun s w => expelWaiter r w.port s) s) q =
      lockEvents r (out.any fun w => decide (w.port = q)) false false (lockView s q) := by
  induction out generalizing s with
  | nil => exact (lockEvents_none r _).symm
  | cons w out ih =>
    rw [List.foldl_cons, ih, lockView_expelWaiter, lockEvents_lockEvents]
    rfl

theorem lockView_leaseLost (r : RecNo) (h q : Port) (s : State) :
    lockView (raiseLeaseLost h (reportLost h r s)) q = lockEvents r false (decide (h = q)) false (lockView s q) := by
  by_cases hq : h = q
  · subst hq
    simp [lockView, lockEvents, raiseLeaseLost, reportLost]
  · simp [lockView, lockEvents, raiseLeaseLost, reportLost, hq, ne_comm.mp hq]

/-- The head waiter is told of the grant (R88). -/
theorem lockView_handOn (r : RecNo) (q : Port) (s : State) :
    lockView (handOn r s) q =
      lockEvents r false false ((lockOf s r).waits.head?.any fun w => decide (w.port = q)) (lockView s q) := by
  cases hw : (lockOf s r).waits with
  | nil =>
    rw [handOn_unwaited hw]
    exact (lockEvents_none r _).symm
  | cons w ws =>
    rw [handOn_waited hw]
    by_cases hq : w.port = q
    · subst hq
      simp [lockView, lockEvents, raiseLockGranted, reportGranted]
    · simp [lockView, lockEvents, raiseLockGranted, reportGranted, hq, ne_comm.mp hq]

/-- The port waits for the lock and is not in the write set. -/
def expelled (ws : PortSet) (l : Lock) (q : Port) : Bool :=
  (l.waits.filter fun w => !ws.get w.port).any fun w => decide (w.port = q)

/-- The port holds the lock and is not in the write set. -/
def ousted (ws : PortSet) (l : Lock) (q : Port) : Bool := decide (l.holder = some q) && !ws.get q

/-- The holder is not in the write set, and the port is the first of the waiters that are. -/
def succeeds (ws : PortSet) (l : Lock) (q : Port) : Bool :=
  (l.holder.any fun h => !ws.get h) && (waitersWithin ws l).waits.head?.any fun w => decide (w.port = q)

theorem expelled_iff (ws : PortSet) (l : Lock) (q : Port) :
    expelled ws l q = true ↔ (∃ w ∈ l.waits, w.port = q) ∧ ws.get q = false := by
  simp only [expelled, List.any_eq_true, List.mem_filter, Bool.not_eq_true', decide_eq_true_eq]
  constructor
  · rintro ⟨w, ⟨hw, hs⟩, rfl⟩
    exact ⟨⟨w, hw, rfl⟩, hs⟩
  · rintro ⟨⟨w, hw, rfl⟩, hs⟩
    exact ⟨w, ⟨hw, hs⟩, rfl⟩

theorem ousted_iff (ws : PortSet) (l : Lock) (q : Port) :
    ousted ws l q = true ↔ l.holder = some q ∧ ws.get q = false := by
  simp [ousted]

theorem succeeds_iff (ws : PortSet) (l : Lock) (q : Port) :
    succeeds ws l q = true ↔ (∃ h, l.holder = some h ∧ ws.get h = false) ∧
      ∃ w rest, (l.waits.filter fun w => ws.get w.port) = w :: rest ∧ w.port = q := by
  simp only [succeeds, waitersWithin, Bool.and_eq_true]
  refine and_congr ?_ ?_
  · cases l.holder <;> simp
  · cases l.waits.filter fun w => ws.get w.port <;> simp

theorem lockView_applyWriteSet (r : RecNo) (ws : PortSet) (s : State) (q : Port) :
    lockView (applyWriteSet r ws s) q =
      lockEvents r (expelled ws (lockOf s r) q) (ousted ws (lockOf s r) q) (succeeds ws (lockOf s r) q)
        (lockView s q) := by
  have set : ∀ l, lockView (setLock r l s) q = lockView s q := fun _ => rfl
  have lost : ∀ h u, lockOf (raiseLeaseLost h (reportLost h r u)) r = lockOf u r := fun _ _ => rfl
  simp only [applyWriteSet]
  cases hh : (lockOf s r).holder with
  | none => simp [lockView_expelWaiters, set, expelled, ousted, succeeds, hh]
  | some h =>
    simp only
    split
    · rename_i hin
      have stays : ousted ws (lockOf s r) q = false := by
        rw [← Bool.not_eq_true, ousted_iff, hh]
        rintro ⟨hq, hout⟩
        obtain rfl := Option.some.inj hq
        simp [hin] at hout
      simp [lockView_expelWaiters, set, expelled, stays, succeeds, hh, hin]
    · rename_i hout
      have goes : ousted ws (lockOf s r) q = decide (h = q) := by
        by_cases hq : h = q
        · subst hq
          simp [ousted, hh, hout]
        · simp [ousted, hh, hq]
      rw [lockView_handOn, lost, lockOf_expelWaiters, lockOf_setLock_self, lockView_leaseLost, lockView_expelWaiters, set,
        lockEvents_lockEvents, lockEvents_lockEvents, goes]
      simp [expelled, succeeds, waitersWithin, hh, hout]

/-- What a port finds in its report and flags, in the words of the rules (R88, R98). -/
theorem lockEvents_effect {r : RecNo} {out lost given : Bool} {x y : LockReport} {f f' : Flags} {Out Lost Given : Prop}
    [Decidable Out] [Decidable Lost] (ho : out = true ↔ Out) (hl : lost = true ↔ Lost) (hg : given = true ↔ Given)
    (h : (y, f') = lockEvents r out lost given (x, f)) :
    (y.timedOut = if Out then some r else x.timedOut) ∧ (y.lost = if Lost then some r else x.lost) ∧
    (Given → y.granted = some r) ∧ (¬Given → y.granted = x.granted) ∧
    (f'.lockTimeout = true ↔ f.lockTimeout = true ∨ Out) ∧ (f'.leaseLost = true ↔ f.leaseLost = true ∨ Lost) ∧
    (f'.lockGranted = true ↔ f.lockGranted = true ∨ Given) := by
  obtain ⟨rfl, rfl⟩ := Prod.mk.inj h
  simp only [← ho, ← hl, ← hg, Bool.or_eq_true, true_and, and_true]
  exact ⟨fun h => if_pos h, fun h => if_neg h⟩

/-! ## A record's notice leaves a port's queue (R115, R119) -/

/-- A port's notice queue and its flags. -/
def queueView (s : State) (q : Port) : List Notice × Flags := (s.notices.get q, s.flags.get q)

/-- The record's notice is gone, and NOTICE_PENDING follows the queue (R119, R120). -/
def noticeDropped (r : RecNo) (x : List Notice × Flags) : List Notice × Flags :=
  (x.1.filter fun n => n.record ≠ r,
   { x.2 with noticePending := decide ((x.1.filter fun n => n.record ≠ r) ≠ []) })

theorem queueView_dropNotice (r : RecNo) (p q : Port) (s : State) :
    queueView (dropNotice r p s) q = if q = p then noticeDropped r (queueView s p) else queueView s q := by
  rw [dropNotice, setNotices_eq]
  by_cases hq : q = p
  · subst hq
    simp [queueView, noticeDropped]
  · simp [queueView, hq]

/-- What a new read set makes of a port: whether it watches, its queue and flags (R119, R137). -/
def withinReaders (r : RecNo) (rs : PortSet) (q : Port) (x : Bool × List Notice × Flags) : Bool × List Notice × Flags :=
  if x.1 = true ∧ rs.get q = false then (false, noticeDropped r x.2) else x

theorem noticeView_leaveReadSet (r : RecNo) (rs : PortSet) (p q : Port) (s : State) :
    noticeView r (leaveReadSet r rs p s) q =
      if q = p then withinReaders r rs p (noticeView r s p) else noticeView r s q := by
  by_cases out : (slotOf s r).watch.get p = true ∧ rs.get p = false
  · have dropped := queueView_dropNotice r p q (setSlot r { slotOf s r with watch := (slotOf s r).watch.set p false } s)
    have outside : withinReaders r rs p (noticeView r s p) = (false, noticeDropped r (queueView s p)) := if_pos out
    have watch : (slotOf (stopWatching r p s) r).watch = (slotOf s r).watch.set p false := by
      rw [slotOf_stopWatching, if_pos rfl]
    rw [leaveReadSet, if_pos (by simpa using out), outside]
    refine (congrArg₂ Prod.mk (congrArg (fun w : PortSet => w.get q) watch) dropped).trans ?_
    rw [PerPort.get_set]
    split <;> rfl
  · have inside : withinReaders r rs p (noticeView r s p) = noticeView r s p := if_neg out
    rw [leaveReadSet, if_neg (by simpa using out), inside]
    split
    · subst_vars; rfl
    · rfl

theorem noticeView_leaveReadSets (r : RecNo) (rs : PortSet) (s : State) (q : Port) :
    noticeView r (forPorts (leaveReadSet r rs) s) q = withinReaders r rs q (noticeView r s q) :=
  forPorts_view (noticeView r) (leaveReadSet r rs) (withinReaders r rs)
    (fun p s q => noticeView_leaveReadSet r rs p q s) s q

theorem leaveReadSet_only (r : RecNo) (rs : PortSet) (p : Port) (s : State) :
    Only { notices := true, flags := true, dir := true } s (leaveReadSet r rs p s) := by
  unfold leaveReadSet
  split
  · exact stopWatching_only r p s
  · exact .refl _ s

/-- Nothing changes of the record's slot but its watch set. -/
theorem leaveReadSets_slot (r : RecNo) (rs : PortSet) (s : State) :
    slotOf (forPorts (leaveReadSet r rs) s) r =
      { slotOf s r with watch := (slotOf (forPorts (leaveReadSet r rs) s) r).watch } := by
  refine forPorts_induct (fun u => slotOf u r = { slotOf s r with watch := (slotOf u r).watch }) _ (fun p u hu => ?_) s rfl
  unfold leaveReadSet
  split
  · rw [slotOf_stopWatching, if_pos rfl, hu]
  · exact hu

end Sys2Proof.Machine

namespace Sys2Proof.Machine

open Sys2Proof

/-! ## What each layout operation changes (R5, R7, R8, R137) -/

/-- Layout operations touch no flag but NOTICE_PENDING and those of the locks. -/
def EventsKept (f f' : Flags) : Prop :=
  f'.commitDone = f.commitDone ∧ f'.supplyWarn = f.supplyWarn ∧ f'.resetSeen = f.resetSeen ∧
    f'.noticeOverflow = f.noticeOverflow

/-! ### DELETE (R37, R109, R119) -/

namespace PortView

/-- What the completion of the record's DELETE makes of a port (R37, R109; of an OPEN COPY: log 19). -/
def recordGone (r : RecNo) (v : PortView) : PortView :=
  match v.read with
  | some rd =>
    if rd.record = r ∧ rd.phase = .waiting then
      v.withdrawn (if rd.kind = .openCopy then .inUse else .noRecord) rd
    else v
  | none => v

variable {r : RecNo} {v : PortView} {rd : Read}

theorem recordGone_waiting (hv : v.read = some rd) (hr : rd.record = r) (hw : rd.phase = .waiting) :
    v.recordGone r = v.withdrawn (if rd.kind = .openCopy then .inUse else .noRecord) rd := by
  simp only [recordGone, hv, hr, hw, and_self, if_true]

theorem recordGone_other (h : ∀ rd, v.read = some rd → rd.record = r → rd.phase ≠ .waiting) : v.recordGone r = v := by
  unfold recordGone
  split
  · rename_i rd hv
    exact if_neg fun ⟨hr, hw⟩ => h rd hv hr hw
  · rfl

/-- The port stays among the waiting reads of every plane but the one where a read of the record waited. -/
theorem recordGone_waits (pl : Plane) :
    (v.recordGone r).waits pl = true ↔ v.waits pl = true ∧
      ¬∃ rd, v.read = some rd ∧ rd.record = r ∧ rd.phase = .waiting ∧ rd.plane = pl := by
  by_cases h : ∃ rd, v.read = some rd ∧ rd.record = r ∧ rd.phase = .waiting
  · obtain ⟨rd, hv, hr, hw⟩ := h
    simp [recordGone_waiting hv hr hw, withdrawn_waits, hv, hr, hw]
  · rw [recordGone_other fun rd hv hr hw => h ⟨rd, hv, hr, hw⟩]
    exact (and_iff_left fun ⟨rd, hv, hr, hw, _⟩ => h ⟨rd, hv, hr, hw⟩).symm

end PortView

theorem portView_refuseDeleted (r : RecNo) (p q : Port) (s : State) :
    portView (refuseDeleted r p s) q = if q = p then (portView s p).recordGone r else portView s q := by
  unfold refuseDeleted
  cases h : s.reads.get p with
  | none => exact portView_kept (PortView.recordGone_other fun rd hv => by simp [portView, h] at hv)
  | some rd =>
    simp only
    split
    · rename_i hop
      obtain ⟨hr, hw⟩ := hop
      rw [portView_withdrawn h, PortView.recordGone_waiting (v := portView s p) h hr hw]
    · rename_i hop
      refine portView_kept (PortView.recordGone_other fun rd' hv hr hw => ?_)
      obtain rfl := Option.some.inj (h.symm.trans hv)
      exact hop ⟨hr, hw⟩

theorem refuseDeleted_waitingOnly (r : RecNo) (p : Port) (s : State) : WaitingOnly s (refuseDeleted r p s) := by
  unfold refuseDeleted
  cases h : s.reads.get p with
  | none => exact .of_eq rfl
  | some rd =>
    simp only
    split
    · exact withdrawn_waitingOnly h _
    · exact .of_eq rfl

/-- What DELETE's completion does at one port. -/
def endRecordAt (r : RecNo) (p : Port) (s : State) : State := dropNotice r p (refuseDeleted r p s)

section DeleteApplied

variable (r : RecNo) (s : State)

theorem applyDelete_only :
    Only { arbiters := true, reads := true, ports := true, notices := true, flags := true }
      (setSlot r Slot.undefined s) (applyLayoutOp (.delete r) s) :=
  Only.forPorts (fun p u => ((refuseDeleted_only r p u).mono (by decide)).trans
    ((dropNotice_only r p _).mono (by decide))) _

theorem applyDelete_portView (q : Port) :
    portView (applyLayoutOp (.delete r) s) q = (portView s q).recordGone r :=
  forPorts_view portView (endRecordAt r) (fun _ => PortView.recordGone r)
    (fun p u q => portView_refuseDeleted r p q u) (setSlot r Slot.undefined s) q

theorem applyDelete_waitingOnly : WaitingOnly s (applyLayoutOp (.delete r) s) :=
  WaitingOnly.forPorts (f := endRecordAt r) (refuseDeleted_waitingOnly r) (setSlot r Slot.undefined s)

theorem applyDelete_queueView (q : Port) :
    queueView (applyLayoutOp (.delete r) s) q = noticeDropped r (queueView s q) := by
  refine forPorts_view queueView (endRecordAt r) (fun _ => noticeDropped r) (fun p u q => ?_)
    (setSlot r Slot.undefined s) q
  have refused := refuseDeleted_only r p u
  have same : ∀ o, queueView (refuseDeleted r p u) o = queueView u o := fun o => by
    rw [queueView, refused.notices rfl, refused.flags rfl, queueView]
  rw [endRecordAt, queueView_dropNotice, same, same]

end DeleteApplied

/-! ### SET ACCESS (R98, R119) -/

section SetAccessApplied

variable (r : RecNo) (rs ws : PortSet) (g : Bool) (s : State)

theorem applyLayoutOp_setAccess : applyLayoutOp (.setAccess r rs ws g) s =
    applyWriteSet r ws (forPorts (leaveReadSet r rs) (layoutChanged (.setAccess r rs ws g) s)) := rfl

theorem leaveReadSets_only (u : State) :
    Only { notices := true, flags := true, dir := true } u (forPorts (leaveReadSet r rs) u) :=
  Only.forPorts (leaveReadSet_only r rs) u

theorem applySetAccess_lock (q : RecNo) :
    lockOf (applyLayoutOp (.setAccess r rs ws g) s) q = if r = q then withinWriteSet ws (lockOf s r) else lockOf s q := by
  have same : ∀ q, lockOf (forPorts (leaveReadSet r rs) (layoutChanged (.setAccess r rs ws g) s)) q = lockOf s q :=
    fun q => by
      rw [lockOf, (leaveReadSets_only r rs _).locks rfl]
      rfl
  rw [applyLayoutOp_setAccess, lockOf_applyWriteSet, same, same]

theorem applySetAccess_noticeView (q : Port) :
    noticeView r (forPorts (leaveReadSet r rs) (layoutChanged (.setAccess r rs ws g) s)) q =
      withinReaders r rs q (noticeView r s q) := by
  have same : noticeView r (layoutChanged (.setAccess r rs ws g) s) q = noticeView r s q := by
    simp [noticeView, layoutChanged]
  rw [noticeView_leaveReadSets, same]

theorem applySetAccess_watch (q : Port) :
    ((slotOf (applyLayoutOp (.setAccess r rs ws g) s) r).watch.get q,
      (applyLayoutOp (.setAccess r rs ws g) s).notices.get q) =
      ((withinReaders r rs q (noticeView r s q)).1, (withinReaders r rs q (noticeView r s q)).2.1) := by
  have only := applyWriteSet_only r ws (forPorts (leaveReadSet r rs) (layoutChanged (.setAccess r rs ws g) s))
  rw [applyLayoutOp_setAccess, slotOf, only.dir rfl, only.notices rfl, ← applySetAccess_noticeView r rs ws g s q]
  rfl

theorem applySetAccess_lockView (q : Port) :
    lockView (applyLayoutOp (.setAccess r rs ws g) s) q =
      lockEvents r (expelled ws (lockOf s r) q) (ousted ws (lockOf s r) q) (succeeds ws (lockOf s r) q)
        (s.reports.get q, (withinReaders r rs q (noticeView r s q)).2.2) := by
  have only := leaveReadSets_only r rs (layoutChanged (.setAccess r rs ws g) s)
  have lock : lockOf (forPorts (leaveReadSet r rs) (layoutChanged (.setAccess r rs ws g) s)) r = lockOf s r := by
    rw [lockOf, only.locks rfl]
    rfl
  have told : lockView (forPorts (leaveReadSet r rs) (layoutChanged (.setAccess r rs ws g) s)) q =
      (s.reports.get q, (withinReaders r rs q (noticeView r s q)).2.2) := by
    rw [lockView, only.reports rfl, ← applySetAccess_noticeView r rs ws g s q]
    rfl
  rw [applyLayoutOp_setAccess, lockView_applyWriteSet, lock, told]

theorem applySetAccess_slot (q : RecNo) :
    slotOf (applyLayoutOp (.setAccess r rs ws g) s) q =
      if r = q then { slotOf s r with
        entry := (slotOf s r).entry.map fun e => { e with readSet := rs, writeSet := ws, guarded := g }
        watch := (slotOf (applyLayoutOp (.setAccess r rs ws g) s) r).watch }
      else slotOf s q := by
  have only := applyWriteSet_only r ws (forPorts (leaveReadSet r rs) (layoutChanged (.setAccess r rs ws g) s))
  have same : ∀ q, slotOf (applyLayoutOp (.setAccess r rs ws g) s) q =
      slotOf (forPorts (leaveReadSet r rs) (layoutChanged (.setAccess r rs ws g) s)) q := fun q => by
    rw [applyLayoutOp_setAccess, slotOf, only.dir rfl, slotOf]
  rw [same, same]
  split
  · rename_i hq
    subst hq
    rw [leaveReadSets_slot r rs, layoutChanged, slotOf_setSlot_self]
  · rename_i hq
    rw [(leaveReadSets_slots r rs _).2 q hq, layoutChanged, slotOf_setSlot_ne _ _ _ _ hq]

end SetAccessApplied

/-! ### Every operation -/

section Applied

variable (op : LayoutOp) (s : State)

theorem applyLayoutOp_others {r : RecNo} (hf : op ≠ .format) (hr : Work.record? (.layout op) ≠ some r) :
    slotOf (applyLayoutOp op s) r = slotOf s r ∧ lockOf (applyLayoutOp op s) r = lockOf s r := by
  cases op with
  | format => exact absurd rfl hf
  | define q e => exact ⟨slotOf_setSlot_ne _ _ _ _ fun h => hr (congrArg some h), rfl⟩
  | delete q =>
    have hq : q ≠ r := fun h => hr (congrArg some h)
    have only := applyDelete_only q s
    refine ⟨?_, ?_⟩
    · rw [slotOf, only.dir rfl, ← slotOf, slotOf_setSlot_ne _ _ _ _ hq]
    · rw [lockOf, only.locks rfl]
      rfl
  | setAccess q rs ws g =>
    have hq : q ≠ r := fun h => hr (congrArg some h)
    exact ⟨(applySetAccess_slot q rs ws g s r).trans (if_neg hq), (applySetAccess_lock q rs ws g s r).trans (if_neg hq)⟩

theorem applyLayoutOp_reads (h : ∀ r, op ≠ .delete r) :
    (applyLayoutOp op s).ports = s.ports ∧ (applyLayoutOp op s).reads = s.reads ∧
      (applyLayoutOp op s).arbiters = s.arbiters := by
  cases op with
  | format | define => exact ⟨rfl, rfl, rfl⟩
  | delete r => exact absurd rfl (h r)
  | setAccess r rs ws g =>
    have only := ((leaveReadSets_only r rs (layoutChanged (.setAccess r rs ws g) s)).mono (by decide)).trans
      ((applyWriteSet_only r ws _).mono
        (k := { notices := true, flags := true, dir := true, locks := true, reports := true }) (by decide))
    exact ⟨only.ports rfl, only.reads rfl, only.arbiters rfl⟩

theorem applyLayoutOp_locks (h : ∀ r rs ws g, op ≠ .setAccess r rs ws g) :
    (applyLayoutOp op s).locks = s.locks ∧ (applyLayoutOp op s).reports = s.reports ∧
      ∀ q, ((applyLayoutOp op s).flags.get q).lockTimeout = (s.flags.get q).lockTimeout ∧
        ((applyLayoutOp op s).flags.get q).leaseLost = (s.flags.get q).leaseLost ∧
        ((applyLayoutOp op s).flags.get q).lockGranted = (s.flags.get q).lockGranted := by
  cases op with
  | format | define => exact ⟨rfl, rfl, fun _ => ⟨rfl, rfl, rfl⟩⟩
  | setAccess r rs ws g => exact absurd rfl (h r rs ws g)
  | delete r =>
    have only := applyDelete_only r s
    refine ⟨only.locks rfl, only.reports rfl, fun q => ?_⟩
    have flags := congrArg Prod.snd (applyDelete_queueView r s q)
    simp only [queueView, noticeDropped] at flags
    rw [flags]
    exact ⟨rfl, rfl, rfl⟩

theorem withinReaders_eventsKept (r : RecNo) (rs : PortSet) (q : Port) (x : Bool × List Notice × Flags) :
    EventsKept x.2.2 (withinReaders r rs q x).2.2 := by
  unfold withinReaders
  split <;> exact ⟨rfl, rfl, rfl, rfl⟩

/-- A port that stops watching keeps the flags of its locks. -/
theorem withinReaders_lockFlags (r : RecNo) (rs : PortSet) (q : Port) (x : Bool × List Notice × Flags) :
    (withinReaders r rs q x).2.2.lockTimeout = x.2.2.lockTimeout ∧
      (withinReaders r rs q x).2.2.leaseLost = x.2.2.leaseLost ∧
      (withinReaders r rs q x).2.2.lockGranted = x.2.2.lockGranted := by
  unfold withinReaders
  split <;> exact ⟨rfl, rfl, rfl⟩

theorem applyLayoutOp_eventsKept (q : Port) : EventsKept (s.flags.get q) ((applyLayoutOp op s).flags.get q) := by
  cases op with
  | format | define => exact ⟨rfl, rfl, rfl, rfl⟩
  | delete r =>
    have flags := congrArg Prod.snd (applyDelete_queueView r s q)
    simp only [queueView, noticeDropped] at flags
    rw [flags]
    exact ⟨rfl, rfl, rfl, rfl⟩
  | setAccess r rs ws g =>
    have flags := congrArg Prod.snd (applySetAccess_lockView r rs ws g s q)
    simp only [lockView, lockEvents] at flags
    rw [flags]
    exact withinReaders_eventsKept r rs q (noticeView r s q)

theorem applyLayoutOp_layout : (applyLayoutOp op s).dir.layout = s.dir.layout := by
  rw [(applyLayoutOp_quiet op s).steady.dir.layout]
  cases op <;> rfl

theorem applyLayoutOp_device : (applyLayoutOp op s).device = if op = .format then .ready else s.device := by
  rw [(applyLayoutOp_quiet op s).steady.device]
  cases op <;> rfl

end Applied

/-! ## The completion of a LAYOUT entry (R137) -/

section LayoutEnded

variable (e : Entry) (op : LayoutOp) (c : Plane) (g : Gen) (s : State)

/-- A layout completion whose effects have been made and whose end is yet to be handed out. -/
def layoutApplied : State := applyLayoutOp op (setLayout (some ⟨c, g⟩) s)

theorem completeLayout_eq : completeLayout e op c g s = engineIdle (forPorts raiseLayoutChanged
    (handOutEnd e { record := e.work.record?, kind := e.work.kind, result := .ok, generation := g }
      (layoutApplied op c g s))) := rfl

theorem layoutApplied_only :
    Only { dir := true, device := true, arbiters := true, reads := true, ports := true, flags := true, notices := true,
           locks := true, reports := true } s (layoutApplied op c g s) :=
  ((setLayout_only _ s).mono (by decide)).trans (applyLayoutOp_only op _)

theorem raiseLayoutChanged_only (u : State) : Only { flags := true } u (forPorts raiseLayoutChanged u) :=
  Only.forPorts (fun p u => setFlags_only p _ u) u

theorem completeLayout_applied :
    Only { results := true, sessions := true, flags := true, engine := true } (layoutApplied op c g s)
      (completeLayout e op c g s) := by
  rw [completeLayout_eq]
  exact (((handOutEnd_only e _ _).mono (by decide)).trans ((raiseLayoutChanged_only _).mono (by decide))).trans
    ((engineIdle_only _).mono (by decide))

theorem completeLayout_flags (q : Port) :
    (completeLayout e op c g s).flags.get q = { (layoutApplied op c g s).flags.get q with
      layoutChanged := true
      commitDone := ((layoutApplied op c g s).flags.get q).commitDone ||
        (decide (q = e.port) && !s.engine.detached) } := by
  have raised := forPorts_view (fun s q => s.flags.get q) raiseLayoutChanged (fun _ f => { f with layoutChanged := true })
    (fun p u q => by simp [raiseLayoutChanged, PerPort.get_set])
  have detached : (layoutApplied op c g s).engine.detached = s.engine.detached := by
    rw [(layoutApplied_only op c g s).engine rfl]
  rw [completeLayout_eq, (engineIdle_only _).flags rfl, raised, handOutEnd_flags, endedFlags, detached]

theorem completeLayout_handed :
    (completeLayout e op c g s).results = (if s.engine.detached then s.results else s.results.set e.port
      (some { record := e.work.record?, kind := e.work.kind, result := .ok, generation := g })) ∧
    (completeLayout e op c g s).sessions =
      if s.engine.detached then s.sessions else s.sessions.set e.port Session.reset := by
  have applied := layoutApplied_only op c g s
  have raised := raiseLayoutChanged_only (handOutEnd e
    { record := e.work.record?, kind := e.work.kind, result := .ok, generation := g } (layoutApplied op c g s))
  rw [completeLayout_eq, (engineIdle_only _).results rfl, (engineIdle_only _).sessions rfl, raised.results rfl,
    raised.sessions rfl, handOutEnd_eq, applied.engine rfl, applied.results rfl, applied.sessions rfl]
  exact ⟨rfl, rfl⟩

end LayoutEnded

/-- The homes that the last step of a LAYOUT entry writes. -/
def layoutHomes : Homes :=
  { array := true, engine := true, dir := true, device := true, locks := true, reports := true, ports := true
    results := true, sessions := true, flags := true, notices := true, arbiters := true, reads := true }

/-- The completion after the step has left its page, home by home. -/
theorem completeLayout_left {s u : State} (left : Only { array := true, arbiters := true, reads := true } s u)
    (e : Entry) (op : LayoutOp) (c : Plane) (g : Gen) :
    completeLayout e op c g u = { s with
      array := u.array
      engine := Engine.reset
      dir := (completeLayout e op c g u).dir
      device := (completeLayout e op c g u).device
      locks := (completeLayout e op c g u).locks
      reports := (completeLayout e op c g u).reports
      ports := (completeLayout e op c g u).ports
      results := if s.engine.detached then s.results else s.results.set e.port
        (some { record := e.work.record?, kind := e.work.kind, result := .ok, generation := g })
      sessions := if s.engine.detached then s.sessions else s.sessions.set e.port Session.reset
      flags := (completeLayout e op c g u).flags
      notices := (completeLayout e op c g u).notices
      arbiters := (completeLayout e op c g u).arbiters
      reads := (completeLayout e op c g u).reads } := by
  have only := completeLayout_only e op c g u
  have whole : Only layoutHomes s (completeLayout e op c g u) := (left.mono (by decide)).trans (only.mono (by decide))
  have array : (completeLayout e op c g u).array = u.array := only.array rfl
  obtain ⟨results, sessions⟩ := completeLayout_handed e op c g u
  rw [left.engine rfl, left.results rfl] at results
  rw [left.engine rfl, left.sessions rfl] at sessions
  rw [← array, ← results, ← sessions]
  exact whole.toEq

/-- The last program attempt of a LAYOUT entry passes, and the entry completes. -/
theorem exec_completeLayout {s : State} {cleared : PageBytes} {p : Port} {op : LayoutOp} {st : EngineStep} {c : Plane}
    (he : s.engine.entry = some ⟨p, .layout op⟩) (hs : s.engine.step = some st) (hstate : s.engine.state = .program)
    (hph : st.phase = .program) (hk : st.k = st.m) (ht : s.engine.target = some c)
    (hold : (s.arbiters.get c).holder = .engine)
    (hx : programAttempt (readPage s.array c 0) (stepContent s st) cleared = stepContent s st) :
    exec (.programAttemptDone cleared) s = .next (completeLayout ⟨p, .layout op⟩ op c s.engine.newGen
      (leavePage c 0 (stepContent s st) s)) := by
  obtain ⟨-, ends⟩ := exec_layout_completes he hs hstate hph hk ht hold hx
  have plane : stepPlane s st = c := by rw [stepPlane_program hph, ht, Option.getD_some]
  have page : stepPage s st = 0 := by rw [stepPage_program hph, if_pos hk, areaBase_layout he]
  rw [ends, completeEntry, stepLeft, plane, page]
  simp only [leavePage_engine, ht]

/-! ### The effects seen after the completion -/

section LayoutCompletion

variable (e : Entry) (op : LayoutOp) (c : Plane) (g : Gen) (s : State)

theorem completeLayout_layout : (completeLayout e op c g s).dir.layout = some ⟨c, g⟩ := by
  rw [(completeLayout_applied e op c g s).dir rfl]
  exact applyLayoutOp_layout op _

theorem completeLayout_device :
    (completeLayout e op c g s).device = if op = .format then .ready else s.device := by
  rw [(completeLayout_applied e op c g s).device rfl]
  exact applyLayoutOp_device op _

theorem completeLayout_events (q : Port) :
    ((completeLayout e op c g s).flags.get q).layoutChanged = true ∧
    ((completeLayout e op c g s).flags.get q).commitDone =
      ((s.flags.get q).commitDone || (decide (q = e.port) && !s.engine.detached)) ∧
    ((completeLayout e op c g s).flags.get q).supplyWarn = (s.flags.get q).supplyWarn ∧
    ((completeLayout e op c g s).flags.get q).resetSeen = (s.flags.get q).resetSeen ∧
    ((completeLayout e op c g s).flags.get q).noticeOverflow = (s.flags.get q).noticeOverflow := by
  obtain ⟨commitDone, supplyWarn, resetSeen, noticeOverflow⟩ := applyLayoutOp_eventsKept op (setLayout (some ⟨c, g⟩) s) q
  rw [completeLayout_flags]
  exact ⟨rfl, congrArg (· || _) commitDone, supplyWarn, resetSeen, noticeOverflow⟩

theorem completeLayout_slot (r : RecNo) : slotOf (completeLayout e op c g s) r = slotOf (layoutApplied op c g s) r :=
  slotOf_congr ((completeLayout_applied e op c g s).dir rfl) r

theorem completeLayout_lock (r : RecNo) : lockOf (completeLayout e op c g s) r = lockOf (layoutApplied op c g s) r := by
  rw [lockOf, (completeLayout_applied e op c g s).locks rfl, lockOf]

theorem completeLayout_others {r : RecNo} (hf : op ≠ .format) (hr : Work.record? (.layout op) ≠ some r) :
    slotOf (completeLayout e op c g s) r = slotOf s r ∧ lockOf (completeLayout e op c g s) r = lockOf s r := by
  rw [completeLayout_slot, completeLayout_lock]
  exact applyLayoutOp_others op (setLayout (some ⟨c, g⟩) s) hf hr

theorem completeLayout_reads (h : ∀ r, op ≠ .delete r) :
    (completeLayout e op c g s).ports = s.ports ∧ (completeLayout e op c g s).reads = s.reads ∧
      (completeLayout e op c g s).arbiters = s.arbiters := by
  have applied := completeLayout_applied e op c g s
  rw [applied.ports rfl, applied.reads rfl, applied.arbiters rfl]
  exact applyLayoutOp_reads op _ h

theorem completeLayout_locks (h : ∀ r rs ws g, op ≠ .setAccess r rs ws g) :
    (completeLayout e op c g s).locks = s.locks ∧ (completeLayout e op c g s).reports = s.reports ∧
      ∀ q, ((completeLayout e op c g s).flags.get q).lockTimeout = (s.flags.get q).lockTimeout ∧
        ((completeLayout e op c g s).flags.get q).leaseLost = (s.flags.get q).leaseLost ∧
        ((completeLayout e op c g s).flags.get q).lockGranted = (s.flags.get q).lockGranted := by
  have applied := completeLayout_applied e op c g s
  simp only [applied.locks rfl, applied.reports rfl, completeLayout_flags]
  exact applyLayoutOp_locks op (setLayout (some ⟨c, g⟩) s) h

/-- FORMAT and DEFINE leave the notice queues alone. -/
theorem completeLayout_notices (h : op = .format ∨ ∃ r e, op = .define r e) :
    (completeLayout e op c g s).notices = s.notices ∧
      ∀ q, ((completeLayout e op c g s).flags.get q).noticePending = (s.flags.get q).noticePending := by
  simp only [(completeLayout_applied e op c g s).notices rfl, completeLayout_flags]
  rcases h with rfl | ⟨r, e, rfl⟩ <;> exact ⟨rfl, fun _ => rfl⟩

theorem completeFormat_slots : (completeLayout e .format c g s).dir.slots = Table.fill 128 Slot.undefined := by
  rw [(completeLayout_applied e .format c g s).dir rfl]
  rfl

theorem completeDefine_slot (r : RecNo) (x : LayoutEntry) :
    slotOf (completeLayout e (.define r x) c g s) r =
      { entry := some x, content := .empty, watch := PortSet.empty, deletePending := false } := by
  rw [completeLayout_slot]
  exact slotOf_setSlot_self _ _ _

end LayoutCompletion

section DeleteCompletion

variable (e : Entry) (r : RecNo) (c : Plane) (g : Gen) (s : State)

theorem completeDelete_slot : slotOf (completeLayout e (.delete r) c g s) r = Slot.undefined := by
  rw [completeLayout_slot, layoutApplied, slotOf, (applyDelete_only r _).dir rfl]
  exact slotOf_setSlot_self _ _ _

theorem completeDelete_notices (q : Port) :
    (completeLayout e (.delete r) c g s).notices.get q = ((s.notices.get q).filter fun n => n.record ≠ r) ∧
      (((completeLayout e (.delete r) c g s).flags.get q).noticePending = true ↔
        (completeLayout e (.delete r) c g s).notices.get q ≠ []) := by
  obtain ⟨notices, flags⟩ := Prod.mk.inj (applyDelete_queueView r (setLayout (some ⟨c, g⟩) s) q)
  rw [completeLayout_flags, (completeLayout_applied e (.delete r) c g s).notices rfl, layoutApplied, notices, flags]
  exact ⟨rfl, decide_eq_true_iff⟩

theorem completeDelete_portView (q : Port) :
    portView (completeLayout e (.delete r) c g s) q = (portView s q).recordGone r := by
  have applied := completeLayout_applied e (.delete r) c g s
  rw [portView, applied.reads rfl, applied.arbiters rfl, applied.ports rfl]
  exact applyDelete_portView r (setLayout (some ⟨c, g⟩) s) q

theorem completeDelete_waitingOnly : WaitingOnly s (completeLayout e (.delete r) c g s) :=
  (applyDelete_waitingOnly r (setLayout (some ⟨c, g⟩) s)).trans
    (.of_eq ((completeLayout_applied e (.delete r) c g s).arbiters rfl))

/-- A port that does not wait for the record keeps its read and its response (R37). -/
theorem completeDelete_kept {q : Port} (h : ∀ rd, s.reads.get q = some rd → rd.record = r → rd.phase ≠ .waiting) :
    (completeLayout e (.delete r) c g s).reads.get q = s.reads.get q ∧
      (completeLayout e (.delete r) c g s).ports.get q = s.ports.get q := by
  have view := completeDelete_portView e r c g s q
  rw [PortView.recordGone_other (v := portView s q) h] at view
  exact ⟨congrArg PortView.read view, congrArg PortView.port view⟩

/-- A read that waits for the record ends with a refusal (R37, R109; of an OPEN COPY: log 19). -/
theorem completeDelete_refused {q : Port} {rd : Read} {tag : Byte} (h : s.reads.get q = some rd) (hr : rd.record = r)
    (hw : rd.phase = .waiting) (hin : (s.ports.get q).inProgress = some tag) :
    (completeLayout e (.delete r) c g s).reads.get q = none ∧
      (completeLayout e (.delete r) c g s).ports.get q =
        (withResponse s q tag (if rd.kind = .openCopy then .inUse else .noRecord) []).get q := by
  have view := completeDelete_portView e r c g s q
  rw [PortView.recordGone_waiting (v := portView s q) h hr hw] at view
  exact ⟨congrArg PortView.read view, (congrArg PortView.port view).trans (answeredWith_inProgress _ hin)⟩

end DeleteCompletion

section SetAccessCompletion

variable (e : Entry) (r : RecNo) (rs ws : PortSet) (gd : Bool) (c : Plane) (g : Gen) (s : State)

theorem completeSetAccess_slot :
    slotOf (completeLayout e (.setAccess r rs ws gd) c g s) r = { slotOf s r with
      entry := (slotOf s r).entry.map fun e => { e with readSet := rs, writeSet := ws, guarded := gd }
      watch := (slotOf (completeLayout e (.setAccess r rs ws gd) c g s) r).watch } := by
  rw [completeLayout_slot]
  exact (applySetAccess_slot r rs ws gd (setLayout (some ⟨c, g⟩) s) r).trans (if_pos rfl)

theorem completeSetAccess_watch (q : Port) :
    (slotOf (completeLayout e (.setAccess r rs ws gd) c g s) r).watch.get q =
        (withinReaders r rs q (noticeView r s q)).1 ∧
      (completeLayout e (.setAccess r rs ws gd) c g s).notices.get q =
        (withinReaders r rs q (noticeView r s q)).2.1 := by
  rw [completeLayout_slot, (completeLayout_applied e (.setAccess r rs ws gd) c g s).notices rfl]
  exact Prod.mk.inj (applySetAccess_watch r rs ws gd (setLayout (some ⟨c, g⟩) s) q)

/-- What a port finds in its report and flags, apart from those of every layout completion. -/
theorem completeSetAccess_lockView (q : Port) : ∃ f,
    ((completeLayout e (.setAccess r rs ws gd) c g s).reports.get q, f) =
      lockEvents r (expelled ws (lockOf s r) q) (ousted ws (lockOf s r) q) (succeeds ws (lockOf s r) q)
        (s.reports.get q, (withinReaders r rs q (noticeView r s q)).2.2) ∧
    (completeLayout e (.setAccess r rs ws gd) c g s).flags.get q = { f with
      layoutChanged := true
      commitDone := f.commitDone || (decide (q = e.port) && !s.engine.detached) } := by
  rw [(completeLayout_applied e (.setAccess r rs ws gd) c g s).reports rfl, completeLayout_flags]
  exact ⟨_, applySetAccess_lockView r rs ws gd (setLayout (some ⟨c, g⟩) s) q, rfl⟩

/-- A watcher outside the new read set stops watching and loses its notice; the others keep both (R119). -/
theorem completeSetAccess_notices (q : Port) :
    if (slotOf s r).watch.get q = true ∧ rs.get q = false
    then (completeLayout e (.setAccess r rs ws gd) c g s).notices.get q =
          ((s.notices.get q).filter fun n => n.record ≠ r) ∧
        (((completeLayout e (.setAccess r rs ws gd) c g s).flags.get q).noticePending = true ↔
          (completeLayout e (.setAccess r rs ws gd) c g s).notices.get q ≠ [])
    else (completeLayout e (.setAccess r rs ws gd) c g s).notices.get q = s.notices.get q ∧
        ((completeLayout e (.setAccess r rs ws gd) c g s).flags.get q).noticePending =
          (s.flags.get q).noticePending := by
  obtain ⟨-, notices⟩ := completeSetAccess_watch e r rs ws gd c g s q
  obtain ⟨f, told, flags⟩ := completeSetAccess_lockView e r rs ws gd c g s q
  obtain ⟨-, rfl⟩ := Prod.mk.inj told
  rw [notices, flags]
  split
  · rename_i out
    have dropped : withinReaders r rs q (noticeView r s q) = (false, noticeDropped r (queueView s q)) := if_pos out
    rw [dropped]
    exact ⟨rfl, decide_eq_true_iff⟩
  · rename_i inside
    have kept : withinReaders r rs q (noticeView r s q) = noticeView r s q := if_neg inside
    rw [kept]
    exact ⟨rfl, rfl⟩

end SetAccessCompletion

/-- The lock after a new write set, in the words of the rules (R88, R98). -/
theorem withinWriteSet_effect (ws : PortSet) (l : Lock) :
    ((∀ h, l.holder = some h → ws.get h = true) →
      withinWriteSet ws l = { l with waits := l.waits.filter fun w => ws.get w.port }) ∧
    ∀ h, l.holder = some h → ws.get h = false →
      ((l.waits.filter fun w => ws.get w.port) = [] → withinWriteSet ws l = Lock.free) ∧
      ∀ w rest, (l.waits.filter fun w => ws.get w.port) = w :: rest →
        withinWriteSet ws l = ⟨some w.port, w.lease, false, rest⟩ := by
  refine ⟨fun within => ?_, fun h hh hout => ?_⟩
  · cases hh : l.holder with
    | none => simp only [withinWriteSet, hh, waitersWithin]
    | some h => simp only [withinWriteSet, hh, within h hh, if_true, waitersWithin]
  · have handed : withinWriteSet ws l = handedOn (waitersWithin ws l) := by
      simp only [withinWriteSet, hh, hout, Bool.false_eq_true, if_false]
    exact ⟨fun none => handed.trans (handedOn_nil none), fun w rest first => handed.trans (handedOn_cons first)⟩

/-- Settles O39: the last attempt passes and the tenure ends; what the step left besides reads, arbiters and the page is
as it was, and the operation's effects follow one by one. -/
theorem layoutEntriesComplete : Obligations.LayoutEntriesComplete := by
  rintro s cleared p op st c new he hs hstate hph hk ht hold rfl hx u
  have left : Only { array := true, arbiters := true, reads := true } s u := leavePage_only c 0 (stepContent s st) s
  have ends : exec (.programAttemptDone cleared) s = .next (completeLayout ⟨p, .layout op⟩ op c s.engine.newGen u) :=
    exec_completeLayout he hs hstate hph hk ht hold hx
  clear_value u
  refine ⟨_, ends, completeLayout_left left ⟨p, .layout op⟩ op c s.engine.newGen, ?_⟩
  generalize s.engine.newGen = g
  have slots : ∀ r, slotOf s r = slotOf u r := fun r => (slotOf_congr (left.dir rfl) r).symm
  have locks : ∀ r, lockOf s r = lockOf u r := fun r => by rw [lockOf, lockOf, left.locks rfl]
  have responses : withResponse s = withResponse u := by
    funext q tag code report
    rw [withResponse, withResponse, left.ports rfl]
  simp only [slots, locks, responses, ← left.engine rfl, ← left.device rfl, ← left.flags rfl, ← left.notices rfl,
    ← left.reports rfl, ← left.ports rfl, ← left.locks rfl]
  refine ⟨completeLayout_layout _ op c g u, completeLayout_device _ op c g u, completeLayout_events _ op c g u,
    fun r => completeLayout_others _ op c g u, completeLayout_reads _ op c g u, completeLayout_locks _ op c g u,
    completeLayout_notices _ op c g u, ?_, ?_, ?_, ?_⟩
  · rintro rfl
    exact completeFormat_slots _ c g u
  · rintro r e rfl
    exact completeDefine_slot _ c g u r e
  · rintro r rfl
    refine ⟨completeDelete_slot _ r c g u, completeDelete_notices _ r c g u, completeDelete_waitingOnly _ r c g u,
      fun pl q => ?_, fun q => ⟨completeDelete_kept _ r c g u, fun rd tag h hr hw hin => ?_⟩⟩
    · have waits := PortView.recordGone_waits (r := r) (v := portView u q) pl
      rw [← completeDelete_portView ⟨p, .layout (.delete r)⟩ r c g u q] at waits
      exact waits
    · obtain ⟨gone, answered⟩ := completeDelete_refused ⟨p, .layout (.delete r)⟩ r c g u h hr hw hin
      refine ⟨gone, fun o n hk => ?_, fun hk => ?_⟩
      · rw [answered, if_neg (by simp [hk])]
      · rw [answered, if_pos hk]
  · rintro r rs ws gd rfl
    obtain ⟨inside, outside⟩ := withinWriteSet_effect ws (lockOf u r)
    rw [lockOf_completeSetAccess]
    refine ⟨fun e hx => ?_, fun q => ?_, completeSetAccess_notices _ r rs ws gd c g u, inside, outside, fun q => ?_⟩
    · have slot := completeSetAccess_slot ⟨p, .layout (.setAccess r rs ws gd)⟩ r rs ws gd c g u
      rw [hx] at slot
      exact slot
    · rw [(completeSetAccess_watch _ r rs ws gd c g u q).1, withinReaders, noticeView]
      cases (slotOf u r).watch.get q <;> cases rs.get q <;> rfl
    · obtain ⟨f, told, flags⟩ := completeSetAccess_lockView ⟨p, .layout (.setAccess r rs ws gd)⟩ r rs ws gd c g u q
      have effect := lockEvents_effect (expelled_iff ws _ q) (ousted_iff ws _ q) (succeeds_iff ws _ q) told
      obtain ⟨lockTimeout, leaseLost, lockGranted⟩ := withinReaders_lockFlags r rs q (noticeView r u q)
      rw [lockTimeout, leaseLost, lockGranted] at effect
      rw [flags]
      exact effect

end Sys2Proof.Machine

namespace Sys2Proof.Machine

open Sys2Proof

/-! ## The service of a request by its code -/

/-- What a request's owner makes of it once the port has accepted it (R171, R181). -/
def service : RequestCode → Port → List Byte → State → State
  | .nop => serveNop
  | .queryRecord => serveQueryRecord
  | .readRecord => serveReadRecord
  | .deviceStatus => serveDeviceStatus
  | .openRecord => serveOpenRecord
  | .stage => serveStage
  | .append => serveAppend
  | .commit => serveCommit
  | .abandon => serveAbandon
  | .fetchCommitResult => serveFetchCommitResult
  | .lock => serveLock
  | .unlock => serveUnlock
  | .fetchLockReport => serveFetchLockReport
  | .watch => serveWatch
  | .unwatch => serveUnwatch
  | .fetchNotice => serveFetchNotice
  | .acknowledge => serveAcknowledge
  | .setAttentionMask => serveSetAttentionMask
  | .format => serveFormat
  | .define => serveDefine
  | .delete => serveDelete
  | .setAccess => serveSetAccess
  | .restart => serveRestart

/-- Every request's command takes its frame and gives it to the service of its code. -/
theorem exec_command (c : RequestCode) (p : Port) (tag : Byte) (body : List Byte) (part : FramePart) (s : State) :
    exec (c.command p tag body part) s = .next (takeRequest c p tag body part (service c p body) s) := by
  cases c <;> rfl

/-- A request that its service refuses changes nothing but the port's transport state. -/
theorem exec_command_refused {c : RequestCode} {s : State} {p : Port} (tag : Byte) {body : List Byte} {code : ResultCode}
    (h : CanRequest s p) (hb : body.length ≤ 252)
    (refused : service c p body (awaiting s p tag body) = refuse p code (awaiting s p tag body)) :
    exec (c.command p tag body) s = .next (answered s p tag body code []) := by
  rw [exec_command, takeRequest_accepted _ _ _ _ _ _ h hb, refused, refuse_awaiting_self]

/-! ## The refusals by device state and by port (R127, R144) -/

section Refused

variable {p : Port} {u : State} {body : List Byte}

theorem whenReady_notReady {serve : State → State} (h : u.device ≠ .ready) :
    whenReady p serve u = refuse p .notReady u := if_neg h

theorem serveLayout_notAdmin {α : Type} {admitted : Bool} {operand : Option α} {own : α → State → State}
    (h : u.rc.admin ≠ p) : serveLayout p admitted operand own u = refuse p .notAdmin u := by
  simp [serveLayout, isAdmin, h]

theorem serveLayout_notReady {α : Type} {admitted : Bool} {operand : Option α} {own : α → State → State}
    (ha : u.rc.admin = p) (h : admitted = false) : serveLayout p admitted operand own u = refuse p .notReady u := by
  simp [serveLayout, isAdmin, ha, h]

theorem serveRestart_notAdmin (h : u.rc.admin ≠ p) : serveRestart p body u = refuse p .notAdmin u := by
  simp [serveRestart, isAdmin, h]

theorem serveRestart_notReady (ha : u.rc.admin = p) (h : u.device = .mounting) :
    serveRestart p body u = refuse p .notReady u := by
  simp [serveRestart, isAdmin, ha, h]

/-- The ordinary requests, which are served in READY alone (R144). -/
theorem service_ordinary {c : RequestCode} (hd : u.device ≠ .ready)
    (hc : c ∈ [.nop, .queryRecord, .readRecord, .openRecord, .stage, .append, .commit, .abandon, .fetchCommitResult,
      .lock, .unlock, .fetchLockReport, .watch, .unwatch, .fetchNotice]) :
    service c p body u = refuse p .notReady u := by
  fin_cases hc <;> exact whenReady_notReady hd

/-- The layout requests that are served in READY alone (R144). -/
theorem service_layout_notReady {c : RequestCode} (ha : u.rc.admin = p) (hd : u.device ≠ .ready)
    (hc : c ∈ [.define, .delete, .setAccess]) : service c p body u = refuse p .notReady u := by
  fin_cases hc <;> exact serveLayout_notReady ha (decide_eq_false hd)

/-- FORMAT and RESTART, which R144 refuses in MOUNTING. -/
theorem service_mounting {c : RequestCode} (ha : u.rc.admin = p) (hd : u.device = .mounting)
    (hc : c ∈ [.format, .restart]) : service c p body u = refuse p .notReady u := by
  fin_cases hc
  · exact serveLayout_notReady ha (decide_eq_false (not_not_intro hd))
  · exact serveRestart_notReady ha hd

/-- The requests of the administrative port alone (R127). -/
theorem service_notAdmin {c : RequestCode} (ha : u.rc.admin ≠ p)
    (hc : c ∈ [.format, .define, .delete, .setAccess, .restart]) : service c p body u = refuse p .notAdmin u := by
  fin_cases hc
  exacts [serveLayout_notAdmin ha, serveLayout_notAdmin ha, serveLayout_notAdmin ha, serveLayout_notAdmin ha,
    serveRestart_notAdmin ha]

end Refused

/-- Settles O9: each group of requests meets its refusal before anything else is looked at. -/
theorem notReadyAndNotAdmin : Obligations.NotReadyAndNotAdmin := by
  refine ⟨fun s p c tag body h hb hd hc => ?_, fun s p c tag body h hb ha hc => ?_⟩
  · apply exec_command_refused tag h hb
    rcases hc with hc | ⟨ha, hc⟩ | ⟨ha, hm, hc⟩
    · exact service_ordinary hd hc
    · exact service_layout_notReady ha hd hc
    · exact service_mounting ha hm hc
  · exact exec_command_refused tag h hb (service_notAdmin ha hc)

end Sys2Proof.Machine

namespace Sys2Proof.Machine

open Sys2Proof

/-! ## The taking of a device reset (R142, R157, R161, R162) -/

/-- Reset control as R157 gives it after the taking, home by home. -/
theorem deviceReset_rc (src : ResetSource) (cut : PageBytes) (s : State) :
    (deviceReset src cut s).rc =
      { warning := s.rc.warning || decide (src = .powerOn ∨ src = .supply)
        held := false
        sources :=
          { supply := if src = .powerOn then some .powerOn else if src = .supply then some .supply
              else s.rc.sources.supply
            pin := s.rc.sources.pin || decide (src = .pin)
            restart := s.rc.sources.restart || decide (src = .restart) }
        cause := s.rc.cause
        latest := src
        admin := s.rc.admin
        restartPending := false } := by
  cases src <;> simp [deviceReset, addSource]

theorem exec_pinReset_taken {s : State} (cut : PageBytes) (h : s.rc.sources.pin = false) :
    exec (.pinReset cut) s = .next (deviceReset .pin cut s) :=
  congrArg Host.Outcome.next (if_neg (by simp [h]))

theorem exec_pinReset_not_taken {s : State} (cut : PageBytes) (h : s.rc.sources.pin = true) :
    exec (.pinReset cut) s = .next s := congrArg Host.Outcome.next (if_pos h)

theorem exec_restartReset_taken {s : State} (cut : PageBytes) (hp : s.rc.restartPending = true)
    (he : s.engine.state = .idle) (hr : resetInForce s = false) :
    exec (.restartReset cut) s = .next (deviceReset .restart cut s) :=
  congrArg Host.Outcome.next (if_pos (by simp [hp, he, hr]))

theorem exec_restartReset_not_taken {s : State} (cut : PageBytes)
    (h : s.rc.restartPending = false ∨ s.engine.state ≠ .idle ∨ resetInForce s = true) :
    exec (.restartReset cut) s = .next s := by
  refine congrArg Host.Outcome.next (if_neg ?_)
  rcases h with h | h | h <;> simp [h]

/-- Settles O44: each cause's command takes the reset, which leaves `State.reset` but for the homes that stay. -/
theorem deviceResetsAreTaken : Obligations.DeviceResetsAreTaken := by
  intro s cut src i h
  have taken : exec i s = .next (deviceReset src cut s) := by
    rcases h with ⟨rfl, rfl⟩ | ⟨rfl, rfl⟩ | ⟨rfl, rfl, hp⟩ | ⟨rfl, rfl, hp, he, hr⟩
    · rfl
    · rfl
    · exact exec_pinReset_taken cut hp
    · exact exec_restartReset_taken cut hp he hr
  refine ⟨?_, exec_pinReset_not_taken cut, exec_restartReset_not_taken cut⟩
  rw [taken]
  exact congrArg (fun x => Host.Outcome.next { deviceReset src cut s with rc := x }) (deviceReset_rc src cut s)

end Sys2Proof.Machine

namespace Sys2Proof.Machine

open Sys2Proof

/-! ## The selection between two copies (R10, R147, R149) -/

theorem successor_last : successor 65535 = 1 := rfl

theorem successor_toNat {g : Gen} (h : g.toNat < 65535) : (successor g).toNat = g.toNat + 1 := by
  have hne : g ≠ 65535 := by rintro rfl; simp at h
  rw [successor, if_neg hne]
  bv_omega

/-- No generation comes two after itself. -/
theorem successor_successor_ne (g : Gen) : g ≠ successor (successor g) := by
  unfold successor
  split
  · subst_vars; decide
  · split <;> bv_omega

theorem newerCopy_p0_iff (g0 g1 : Gen) :
    newerCopy g0 g1 = .p0 ↔ g0 = successor g1 ∧ g1 ≠ successor g0 ∨ g1 ≠ successor g0 ∧ g1.toNat ≤ g0.toNat := by
  unfold newerCopy
  split_ifs with second first less
  · simp [second]
  · exact iff_of_true rfl (.inl ⟨first, second⟩)
  · simp [second, first, less]
  · simp [second, Nat.not_lt.mp less]

theorem newerCopy_p1_iff (g0 g1 : Gen) :
    newerCopy g0 g1 = .p1 ↔ g1 = successor g0 ∨ g0 ≠ successor g1 ∧ g0.toNat < g1.toNat := by
  unfold newerCopy
  split_ifs with second first less
  · simp [second]
  · exact iff_of_false (by decide) fun h => h.elim second fun ⟨older, _⟩ => older first
  · simp [first, less]
  · simp [second, less]

theorem selectRecord_p0 {g0 g1 : Gen} (h : newerCopy g0 g1 = .p0) :
    selectRecord (.valid g0) (.valid g1) = .valid .p0 g0 := by
  delta selectRecord
  dsimp only
  rw [h]

theorem selectRecord_p1 {g0 g1 : Gen} (h : newerCopy g0 g1 = .p1) :
    selectRecord (.valid g0) (.valid g1) = .valid .p1 g1 := by
  delta selectRecord
  dsimp only
  rw [h]

/-- The one VALID copy is selected, in whichever plane it lies. -/
theorem selectRecord_one (g : Gen) {k : RecordClass} (h : ∀ g', k ≠ .valid g') :
    selectRecord (.valid g) k = .valid .p0 g ∧ selectRecord k (.valid g) = .valid .p1 g := by
  cases k with
  | valid g' => exact absurd rfl (h g')
  | noImage | invalid => exact ⟨rfl, rfl⟩

theorem selectRecord_damaged {k l : RecordClass} (hk : ∀ g, k ≠ .valid g) (hl : ∀ g, l ≠ .valid g)
    (h : ¬(k = .noImage ∧ l = .noImage)) : selectRecord k l = .damaged := by
  cases k with
  | valid g => exact absurd rfl (hk g)
  | invalid =>
    cases l with
    | valid g => exact absurd rfl (hl g)
    | noImage | invalid => rfl
  | noImage =>
    cases l with
    | valid g => exact absurd rfl (hl g)
    | noImage => exact absurd ⟨rfl, rfl⟩ h
    | invalid => rfl

/-- Settles O48: R149's table row by row, two VALID copies by `newerCopy`, and the successor. -/
theorem copiesAreSelected : Obligations.CopiesAreSelected := by
  refine ⟨rfl, fun g k => selectRecord_one g, fun k l => selectRecord_damaged, fun g _ => ⟨?_, ?_⟩, fun g h hh hg => ?_,
    fun g => ⟨successor_ne_zero g, successor_toNat, ?_⟩⟩
  · exact selectRecord_p1 ((newerCopy_p1_iff _ _).mpr (.inl rfl))
  · exact selectRecord_p0 ((newerCopy_p0_iff _ _).mpr (.inl ⟨rfl, successor_successor_ne g⟩))
  · split
    · rename_i less
      exact selectRecord_p1 ((newerCopy_p1_iff _ _).mpr (.inr ⟨hg, less⟩))
    · rename_i less
      exact selectRecord_p0 ((newerCopy_p0_iff _ _).mpr (.inr ⟨hh, Nat.not_lt.mp less⟩))
  · rintro rfl
    exact successor_last

/-! ### The layout copies (R147) -/

theorem selectLayout_p0 {g0 g1 : Gen} {t0 t1 : Table 128 (Option LayoutEntry)} (h : newerCopy g0 g1 = .p0) :
    selectLayout (.valid g0 t0) (.valid g1 t1) = .ready ⟨.p0, g0⟩ t0 := by
  delta selectLayout
  dsimp only
  rw [h]

theorem selectLayout_p1 {g0 g1 : Gen} {t0 t1 : Table 128 (Option LayoutEntry)} (h : newerCopy g0 g1 = .p1) :
    selectLayout (.valid g0 t0) (.valid g1 t1) = .ready ⟨.p1, g1⟩ t1 := by
  delta selectLayout
  dsimp only
  rw [h]

theorem selectLayout_damaged {k l : LayoutClass} (hk : ∀ g t, k ≠ .valid g t) (hl : ∀ g t, l ≠ .valid g t)
    (h : ¬(k = .noImage ∧ l = .noImage)) : selectLayout k l = .damaged := by
  cases k with
  | valid g t => exact absurd rfl (hk g t)
  | invalid =>
    cases l with
    | valid g t => exact absurd rfl (hl g t)
    | noImage | invalid => rfl
  | noImage =>
    cases l with
    | valid g t => exact absurd rfl (hl g t)
    | noImage => exact absurd ⟨rfl, rfl⟩ h
    | invalid => rfl

/-- Copy 0 is selected where it is VALID and a VALID copy 1 is not the newer. -/
theorem selectLayout_first {g : Gen} {t : Table 128 (Option LayoutEntry)} {k : LayoutClass}
    (h : ∀ g' t', k = .valid g' t' → newerCopy g g' = .p0) : selectLayout (.valid g t) k = .ready ⟨.p0, g⟩ t := by
  cases k with
  | valid g' t' => exact selectLayout_p0 (h g' t' rfl)
  | noImage | invalid => rfl

/-- Copy 1 is selected where it is VALID and a VALID copy 0 is older. -/
theorem selectLayout_second {g : Gen} {t : Table 128 (Option LayoutEntry)} {k : LayoutClass}
    (h : ∀ g' t', k = .valid g' t' → newerCopy g' g = .p1) : selectLayout k (.valid g t) = .ready ⟨.p1, g⟩ t := by
  cases k with
  | valid g' t' => exact selectLayout_p1 (h g' t' rfl)
  | noImage | invalid => rfl

end Sys2Proof.Machine

namespace Sys2Proof.Machine

open Sys2Proof

/-! ## The slots in order (R150) -/

/-- The list of the record numbers holds each in its place. -/
theorem allRecords_eq_finRange : allRecords = List.finRange 128 := by decide +kernel

theorem firstDefined_eq_none_iff (s : State) (n : Nat) :
    firstDefined s n = none ↔ ∀ r : RecNo, n ≤ r.val → (slotOf s r).entry = none := by
  simp [firstDefined, allRecords_eq_finRange, List.find?_eq_none]

theorem firstDefined_eq_some {s : State} {n : Nat} {r : RecNo} (hn : n ≤ r.val) (hr : (slotOf s r).entry ≠ none)
    (h : ∀ r' : RecNo, n ≤ r'.val → r' < r → (slotOf s r').entry = none) : firstDefined s n = some r := by
  rw [firstDefined, allRecords_eq_finRange, List.find?_eq_some_iff_getElem]
  refine ⟨by simp [hn, Option.isSome_iff_ne_none, hr], r.val, by simp, by simp, fun j hj => ?_⟩
  have before := h ⟨j, hj.trans r.isLt⟩
  simp only [List.getElem_finRange, Bool.not_eq_true', Bool.and_eq_false_iff, decide_eq_false_iff_not]
  by_cases hnj : n ≤ j
  · right
    simpa using before hnj hj
  · exact .inl hnj

/-! ## The end of mount (R151) -/

theorem forPorts_raiseResetSeen (s : State) :
    forPorts raiseResetSeen s = { s with
      flags := ⟨{ s.flags.a with resetSeen := true }, { s.flags.b with resetSeen := true },
                { s.flags.c with resetSeen := true }, { s.flags.d with resetSeen := true }⟩ } := rfl

theorem forPorts_raiseSupplyWarn (s : State) :
    forPorts raiseSupplyWarn s = { s with
      flags := ⟨{ s.flags.a with supplyWarn := true }, { s.flags.b with supplyWarn := true },
                { s.flags.c with supplyWarn := true }, { s.flags.d with supplyWarn := true }⟩ } := rfl

/-- The end of mount but for a held warning: the device state, both planes released, RESET_SEEN (R151). -/
def mountSeen (d : DeviceState) (s : State) : State :=
  { s with
    device := d
    mount := .idle
    arbiters := ⟨Arbiter.reset, Arbiter.reset⟩
    flags := ⟨{ s.flags.a with resetSeen := true }, { s.flags.b with resetSeen := true },
              { s.flags.c with resetSeen := true }, { s.flags.d with resetSeen := true }⟩ }

theorem endMount_mountSeen (d : DeviceState) (s : State) :
    endMount d s = if s.rc.held
      then forPorts raiseSupplyWarn (setRc { s.rc with held := false } (mountSeen d s)) else mountSeen d s := by
  have seen : forPorts raiseResetSeen (setMount .idle (setDevice d { s with
      arbiters := ⟨Arbiter.reset, Arbiter.reset⟩ })) = mountSeen d s := forPorts_raiseResetSeen _
  delta endMount
  dsimp only
  rw [seen]
  rfl

theorem endMount_eq (d : DeviceState) (s : State) :
    endMount d s = { s with
      device := d
      mount := .idle
      arbiters := ⟨Arbiter.reset, Arbiter.reset⟩
      rc := { s.rc with held := false }
      flags :=
        ⟨{ s.flags.a with resetSeen := true, supplyWarn := s.flags.a.supplyWarn || s.rc.held },
         { s.flags.b with resetSeen := true, supplyWarn := s.flags.b.supplyWarn || s.rc.held },
         { s.flags.c with resetSeen := true, supplyWarn := s.flags.c.supplyWarn || s.rc.held },
         { s.flags.d with resetSeen := true, supplyWarn := s.flags.d.supplyWarn || s.rc.held }⟩ } := by
  rw [endMount_mountSeen]
  cases held : s.rc.held with
  | true =>
    rw [if_pos rfl, forPorts_raiseSupplyWarn]
    simp only [Bool.or_true]
    rfl
  | false =>
    have spent : { s.rc with held := false } = s.rc := by rw [← held]
    rw [if_neg Bool.false_ne_true, spent]
    simp only [Bool.or_false]
    rfl

/-! ## Layout selection (R147) -/

section LayoutSelected

variable {s : State} (hm : s.mount = .layout)

include hm

theorem exec_mountLayoutSelected_unformatted
    (h : selectLayout (classifyLayout (readLayout s .p0)) (classifyLayout (readLayout s .p1)) = .unformatted) :
    exec .mountLayoutSelected s = .next (endMount .unformatted s) := by
  refine congrArg Host.Outcome.next ((if_pos hm).trans ?_)
  rw [h]

theorem exec_mountLayoutSelected_damaged
    (h : selectLayout (classifyLayout (readLayout s .p0)) (classifyLayout (readLayout s .p1)) = .damaged) :
    exec .mountLayoutSelected s = .next (endMount .layoutDamaged s) := by
  refine congrArg Host.Outcome.next ((if_pos hm).trans ?_)
  rw [h]

section Ready

variable {v : LayoutVersion} {es : Table 128 (Option LayoutEntry)}
  (h : selectLayout (classifyLayout (readLayout s .p0)) (classifyLayout (readLayout s .p1)) = .ready v es)

include h

theorem exec_mountLayoutSelected_none (he : ∀ r, es.get r = none) :
    exec .mountLayoutSelected s = .next (endMount .ready (mounted s v es)) := by
  have none : firstDefined (mounted s v es) 0 = none :=
    (firstDefined_eq_none_iff _ 0).mpr fun r _ => (congrArg Slot.entry (slotOf_mounted s v es r)).trans (he r)
  refine congrArg Host.Outcome.next ((if_pos hm).trans ?_)
  simp only [h, none]

theorem exec_mountLayoutSelected_some (he : ¬∀ r, es.get r = none) :
    exec .mountLayoutSelected s = .next (setMount (.records 0) (mounted s v es)) := by
  have defined : firstDefined (mounted s v es) 0 ≠ none := fun hn => he fun r =>
    (congrArg Slot.entry (slotOf_mounted s v es r)).symm.trans ((firstDefined_eq_none_iff _ 0).mp hn r (Nat.zero_le _))
  obtain ⟨r, first⟩ := Option.ne_none_iff_exists'.mp defined
  refine congrArg Host.Outcome.next ((if_pos hm).trans ?_)
  simp only [h, first]

end Ready

end LayoutSelected

/-! ## The setting of a slot (R148 to R150) -/

section SlotSet

variable {s : State} {r0 r : RecNo} {e : LayoutEntry} (hm : s.mount = .records r0)
  (hf : firstDefined s r0.val = some r) (he : (slotOf s r).entry = some e)

include hm hf he

theorem exec_mountSlotSet_fault (hx : extentInArray e.basePage (extentPages e.length) = false) :
    exec .mountSlotSet s = .fault .pageOutsideArray := by
  simp [exec, execMountSlotSet, hm, hf, he, hx]

theorem exec_mountSlotSet (hx : extentInArray e.basePage (extentPages e.length) = true) :
    exec .mountSlotSet s = .next (mountOn r (slotMounted s r e)) := by
  simp [exec, execMountSlotSet, slotMounted, hm, hf, he, hx]

end SlotSet

/-- The setting of a slot leaves what the slots beyond it are. -/
theorem slotMounted_entry (s : State) {r r' : RecNo} (e : LayoutEntry) (h : r < r') :
    (slotOf (slotMounted s r e) r').entry = (slotOf s r').entry := by
  rw [slotOf_setSlot_ne _ _ _ _ h.ne]

theorem mountOn_last {r : RecNo} {u : State} (h : ∀ r', r < r' → (slotOf u r').entry = none) :
    mountOn r u = endMount .ready u := by
  have none : firstDefined u (r.val + 1) = none := (firstDefined_eq_none_iff _ _).mpr h
  simp only [mountOn, none]

theorem mountOn_next {r r1 : RecNo} {u : State} (h : r < r1) (h1 : (slotOf u r1).entry ≠ none)
    (hb : ∀ r', r < r' → r' < r1 → (slotOf u r').entry = none) : mountOn r u = setMount (.records r1) u := by
  have first : firstDefined u (r.val + 1) = some r1 := firstDefined_eq_some h h1 hb
  simp only [mountOn, first]

/-- Settles O47: the start; the layout by the selection's outcome; the slot by the first defined one; the end. -/
theorem mountRuns : Obligations.MountRuns := by
  refine fun s => ⟨fun hd hr hm => congrArg Host.Outcome.next (if_pos ⟨hd, hr, hm⟩),
    fun hm k0 k1 h0 h1 => ?_, fun r0 r e hm hr he hb => ?_, fun d => endMount_eq d s⟩
  · have classes : selectLayout (classifyLayout (readLayout s .p0)) (classifyLayout (readLayout s .p1)) =
        selectLayout k0 k1 := congrArg₂ selectLayout h0 h1
    refine ⟨?_, fun n0 n1 n => ?_, fun c g es hc => ?_⟩
    · rintro rfl rfl
      exact exec_mountLayoutSelected_unformatted hm classes
    · exact exec_mountLayoutSelected_damaged hm (classes.trans (selectLayout_damaged n0 n1 n))
    · have selected : selectLayout k0 k1 = .ready ⟨c, g⟩ es := by
        rcases hc with ⟨rfl, rfl, newer⟩ | ⟨rfl, rfl, newer⟩
        · exact selectLayout_first fun g' t' h => (newerCopy_p0_iff _ _).mpr (newer g' t' h)
        · exact selectLayout_second fun g' t' h => (newerCopy_p1_iff _ _).mpr (newer g' t' h)
      split
      · exact exec_mountLayoutSelected_none hm (classes.trans selected) ‹_›
      · exact exec_mountLayoutSelected_some hm (classes.trans selected) ‹_›
  · have first : firstDefined s r0.val = some r := firstDefined_eq_some hr (by simp [he]) hb
    refine ⟨exec_mountSlotSet_fault hm first he, fun hx last => ?_, fun hx r1 h1 defined between => ?_⟩
    · rw [exec_mountSlotSet hm first he hx, mountOn_last fun r' h => (slotMounted_entry s e h).trans (last r' h)]
      rfl
    · rw [exec_mountSlotSet hm first he hx, mountOn_next h1 (by rwa [slotMounted_entry s e h1]) fun r' h h' =>
        (slotMounted_entry s e h).trans (between r' h h')]
      rfl

end Sys2Proof.Machine

namespace Sys2Proof.Machine

open Sys2Proof

/-! ## Frames that the port ignores (R162, R163, R166) -/

/-- A frame's command does what its part does to the frame, where that leaves the request in progress as it was: then
there is no response to be written. -/
theorem exec_frame {s u : State} {p : Port} {part : FramePart} {i : Instr} (h : FrameOn p part i) (hp : part ≠ .reply)
    (same : (u.ports.get p).inProgress = (s.ports.get p).inProgress)
    (taken : ∀ bytes extra judge, takeFrame p bytes extra judge part s = u) : exec i s = .next u := by
  obtain ⟨c, tag, body, rfl⟩ | ⟨sent, rfl⟩ | ⟨sent, rfl⟩ | ⟨bytes, extra, rfl⟩ := h
  · rw [exec_command]
    cases part with
    | whole =>
      simp only [takeRequest, taken]
      split
      · rfl
      · next idle =>
        have none : (u.ports.get p).inProgress = none := by simpa [same] using idle
        simp only [writeReply, none]
    | fall | clock | rise => simp only [takeRequest, taken]
    | reply => exact absurd rfl hp
  · exact congrArg Host.Outcome.next (taken _ _ _)
  · exact congrArg Host.Outcome.next (taken _ _ _)
  · refine congrArg Host.Outcome.next ?_
    split
    · exact taken _ _ _
    · exact taken _ _ _

/-- A line already low does not fall. -/
theorem fallFrame_low {s : State} {p : Port} (h : s.csLow.get p = true) : fallFrame p s = s := if_pos h

/-- A new receiver state leaves the request in progress. -/
theorem inProgress_set_receiver (s : State) (p : Port) (x : ReceiverState) :
    ((s.ports.set p { s.ports.get p with receiver := x }).get p).inProgress = (s.ports.get p).inProgress := by
  rw [PerPort.get_set_self]

/-- Settles O3: the fall on a port that takes no frame, then each part of a frame that it ignores. -/
theorem ignoredFrames : Obligations.IgnoredFrames := by
  refine fun s p part i h => ⟨?_, ?_, ?_, ?_, ?_, ?_⟩
  · rintro rfl high shut
    exact exec_frame h (by decide) (inProgress_set_receiver s p _) fun _ _ _ => fallFrame_ignored p s shut high
  · rintro rfl low
    exact exec_frame h (by decide) rfl fun _ _ _ => fallFrame_low low
  · rintro rfl outside
    refine exec_frame h (by decide) rfl fun bytes extra _ => clockFrame_not_receiving p bytes extra s fun f => ?_
    rcases outside with idle | ignoring
    · simp [idle]
    · simp [ignoring]
  · rintro (rfl | rfl) low ignoring
    · exact exec_frame h (by decide) (inProgress_set_receiver s p _) fun bytes extra judge =>
        riseFrame_nothing p bytes extra judge s low (by simp [ignoring])
    · exact exec_frame h (by decide) (inProgress_set_receiver s p _) fun bytes extra judge =>
        takeFrame_ignored p bytes extra judge s low ignoring
  · rintro rfl high
    exact exec_frame h (by decide) rfl fun bytes extra judge => riseFrame_high p bytes extra judge s high
  · rintro rfl high shut idle
    exact exec_frame h (by decide) rfl fun bytes extra judge => takeFrame_held p bytes extra judge s shut high idle

/-! ## The supply warning (R158 to R160) -/

/-- Settles O42: the raise under a reset, in MOUNTING and in every other device state, and the removal. -/
theorem supplyWarningMoves : Obligations.SupplyWarningMoves := by
  refine fun s => ⟨fun absent free mounted => ?_, fun absent free mounting => ?_, fun absent reset => ?_,
    fun present => ⟨?_, ?_⟩, fun absent => ?_⟩
  all_goals refine congrArg Host.Outcome.next ?_
  · rw [if_neg (by simp [absent]), if_neg (by simp [free]), if_neg mounted, forPorts_raiseSupplyWarn]
    rfl
  · rw [if_neg (by simp [absent]), if_neg (by simp [free]), if_pos mounting]
    rfl
  · rw [if_neg (by simp [absent]), if_pos reset]
    rfl
  · exact if_pos present
  · exact if_pos present
  · exact if_neg (by simp [absent])

/-! ## The sources of a reset and its release (R161, R162) -/

/-- Exactly one source is in force, as the sources stand. -/
theorem lastSource_iff (x : Sources) :
    lastSource x = true ↔
      (x.supply ≠ none ∧ x.pin = false ∧ x.restart = false ∨ x.supply = none ∧ x.pin = true ∧ x.restart = false ∨
        x.supply = none ∧ x.pin = false ∧ x.restart = true) := by
  simp only [lastSource, Bool.or_eq_true, Bool.and_eq_true, Bool.not_eq_true', Option.isSome_iff_ne_none,
    Option.isNone_iff_eq_none, and_assoc, or_assoc]

/-- Each source is in force by its own field. -/
theorem sourceInForce_eq_false_iff (x : Sources) (src : ResetSource) :
    sourceInForce x src = false ↔
      (src = .powerOn ∧ x.supply ≠ some .powerOn ∨ src = .supply ∧ x.supply ≠ some .supply ∨
       src = .pin ∧ x.pin = false ∨ src = .restart ∧ x.restart = false) := by
  cases src <;> simp [sourceInForce]

/-- Of the sources in force one lets go and none remains: it was the last. -/
theorem dropSource_eq_none_iff {x : Sources} {src : ResetSource} (h : sourceInForce x src = true) :
    dropSource x src = Sources.none ↔ lastSource x = true := by
  rw [lastSource_iff]
  cases src <;> simp only [sourceInForce, decide_eq_true_eq] at h <;> simp [dropSource, Sources.none, h]

theorem exec_sourceLetsGo {s : State} {src : ResetSource} (held : sourceInForce s.rc.sources src = true)
    (others : lastSource s.rc.sources = false) :
    exec (.sourceLetsGo src) s = .next (setRc { s.rc with sources := dropSource s.rc.sources src } s) := by
  have left : dropSource s.rc.sources src ≠ Sources.none := fun none => by
    simp [(dropSource_eq_none_iff held).mp none] at others
  exact congrArg Host.Outcome.next (if_pos (by simp [held, left]))

theorem exec_sourceLetsGo_not {s : State} {src : ResetSource}
    (h : sourceInForce s.rc.sources src = false ∨ lastSource s.rc.sources = true) :
    exec (.sourceLetsGo src) s = .next s := by
  refine congrArg Host.Outcome.next (if_neg fun go => ?_)
  simp only [Bool.and_eq_true, decide_eq_true_eq] at go
  obtain ⟨held, left⟩ := go
  rcases h with off | last
  · simp [off] at held
  · exact left ((dropSource_eq_none_iff held).mpr last)

/-- Two sources in force: neither is the last. -/
theorem lastSource_eq_false {x : Sources} (h : x.supply ≠ none ∧ x.pin = true ∨ x.supply ≠ none ∧ x.restart = true ∨
    x.pin = true ∧ x.restart = true) : lastSource x = false := by
  rw [← Bool.not_eq_true, lastSource_iff]
  rcases h with ⟨a, b⟩ | ⟨a, b⟩ | ⟨a, b⟩ <;> simp [a, b]

/-- The straps name the port by their value (R127). -/
theorem strapPort_eq (straps : BitVec 2) :
    strapPort straps = if straps = 0 then .a else if straps = 1 then .b else if straps = 2 then .c else .d := by
  revert straps
  decide

/-! ### The chip selects that a release finds (log 17) -/

theorem findChipSelect_only (p : Port) (low : Bool) (s : State) :
    Only { ports := true, csLow := true } s (findChipSelect p low s) :=
  ((setPort_only p _ s).mono (by decide)).trans ((setCs_only p low _).mono (by decide))

theorem forPorts_findChipSelect_port (low : PortSet) (s : State) (p : Port) :
    (forPorts (fun p => findChipSelect p (low.get p)) s).ports.get p =
      { s.ports.get p with receiver := if low.get p then .ignoring else .idle } :=
  forPorts_view (fun s q => s.ports.get q) (fun p => findChipSelect p (low.get p))
    (fun p x => { x with receiver := if low.get p then .ignoring else .idle })
    (fun p s q => by rw [findChipSelect_eq, PerPort.get_set]) s p

theorem forPorts_findChipSelect_csLow (low : PortSet) (s : State) :
    (forPorts (fun p => findChipSelect p (low.get p)) s).csLow = low :=
  PerPort.ext_get <| forPorts_view (fun s q => s.csLow.get q) (fun p => findChipSelect p (low.get p))
    (fun p _ => low.get p) (fun p s q => by rw [findChipSelect_eq, PerPort.get_set]) s

/-- Each port finds its own chip select, and nothing else changes. -/
theorem forPorts_findChipSelect (low : PortSet) (s : State) :
    forPorts (fun p => findChipSelect p (low.get p)) s =
      { s with ports := (forPorts (fun p => findChipSelect p (low.get p)) s).ports, csLow := low } := by
  have only := Only.forPorts (fun p s => findChipSelect_only p (low.get p) s) s
  conv_rhs => rw [← forPorts_findChipSelect_csLow low s]
  exact only.toEq

/-- The release: no source in force, the cause, ADMSEL and a warning present taken in; then the ports' chip selects (R162). -/
theorem exec_resetRelease {s : State} {straps : BitVec 2} {low : PortSet} (last : lastSource s.rc.sources = true) :
    exec (.resetRelease straps low) s = .next (forPorts (fun p => findChipSelect p (low.get p))
      (setRc { s.rc with sources := Sources.none, cause := s.rc.latest, admin := strapPort straps,
                         held := s.rc.held || s.rc.warning } s)) :=
  congrArg Host.Outcome.next (if_pos last)

theorem exec_resetRelease_not {s : State} {straps : BitVec 2} {low : PortSet} (h : ¬lastSource s.rc.sources = true) :
    exec (.resetRelease straps low) s = .next s :=
  congrArg Host.Outcome.next (if_neg h)

/-- Settles O46: the release by the last source, and a source that lets go while another holds the reset. -/
theorem sourcesLetGo : Obligations.SourcesLetGo := by
  refine fun s straps low => ⟨fun last => ⟨_, exec_resetRelease ((lastSource_iff _).mpr last), ?_, fun p => ?_⟩,
    fun other => exec_resetRelease_not (other ∘ (lastSource_iff _).mp), fun v src hv same others => ?_,
    fun pin others => ?_, fun restart others => ?_, fun src h => exec_sourceLetsGo_not ?_⟩
  · rw [← strapPort_eq]
    exact forPorts_findChipSelect low _
  · exact forPorts_findChipSelect_port low _ p
  · have both : lastSource s.rc.sources = false := lastSource_eq_false (by simpa [hv] using others.imp_right .inl)
    rcases same with ⟨rfl, rfl⟩ | ⟨rfl, rfl⟩
    · exact exec_sourceLetsGo (by simp [sourceInForce, hv]) both
    · exact exec_sourceLetsGo (by simp [sourceInForce, hv]) both
  · exact exec_sourceLetsGo pin (lastSource_eq_false (others.elim (fun v => .inl ⟨v, pin⟩) fun r => .inr (.inr ⟨pin, r⟩)))
  · exact exec_sourceLetsGo restart
      (lastSource_eq_false (others.elim (fun v => .inr (.inl ⟨v, restart⟩)) fun r => .inr (.inr ⟨r, restart⟩)))
  · exact h.imp (sourceInForce_eq_false_iff _ src).mpr (lastSource_iff _).mpr

end Sys2Proof.Machine

namespace Sys2Proof.Machine

open Sys2Proof

/-! ## The lock table under a port clear (R88, R97) -/

/-- A port clear's turn at one lock: held by the port, it is handed on. -/
def releaseHeld (p : Port) (s : State) (r : RecNo) : State := if (lockOf s r).holder = some p then handOn r s else s

theorem clearLocks_eq (p : Port) (s : State) :
    clearLocks p s = setReport p LockReport.reset
      (allRecords.foldl (releaseHeld p) { s with locks := s.locks.map (leaveWaits p) }) := rfl

theorem lockOf_releaseHeld (p : Port) (s : State) (r q : RecNo) :
    lockOf (releaseHeld p s r) q =
      if r = q ∧ (lockOf s q).holder = some p then handedOn (lockOf s q) else lockOf s q := by
  by_cases hq : r = q
  · subst hq
    by_cases held : (lockOf s r).holder = some p
    · simp [releaseHeld, held, lockOf_handOn_eq]
    · simp [releaseHeld, held]
  · simp only [releaseHeld, hq, false_and, if_false]
    split
    · rw [lockOf_handOn_eq, if_neg hq]
    · rfl

/-- The turns at a list of locks reach each of them once, and no other (R97). -/
theorem lockOf_releaseHeld_foldl (p : Port) {l : List RecNo} (once : l.Nodup) (s : State) (q : RecNo) :
    lockOf (l.foldl (releaseHeld p) s) q =
      if q ∈ l ∧ (lockOf s q).holder = some p then handedOn (lockOf s q) else lockOf s q := by
  induction l generalizing s with
  | nil => simp
  | cons r l ih =>
    obtain ⟨fresh, once⟩ := List.nodup_cons.mp once
    rw [List.foldl_cons, ih once]
    by_cases hq : r = q
    · subst hq
      simp [lockOf_releaseHeld, fresh]
    · have kept : lockOf (releaseHeld p s r) q = lockOf s q := by simp [lockOf_releaseHeld, hq]
      simp [kept, Ne.symm hq]

theorem nodup_allRecords : allRecords.Nodup := allRecords_eq_finRange ▸ List.nodup_finRange 128

/-- A lock after a port clear: the port's wait entry gone, and handed on where the port held it (R97). -/
theorem lockOf_clearLocks (p : Port) (s : State) (r : RecNo) :
    lockOf (clearLocks p s) r =
      if (lockOf s r).holder = some p then handedOn (leaveWaits p (lockOf s r)) else leaveWaits p (lockOf s r) := by
  have left : lockOf { s with locks := s.locks.map (leaveWaits p) } r = leaveWaits p (lockOf s r) := Table.get_map _ _ _
  rw [clearLocks_eq, show ∀ u, lockOf (setReport p LockReport.reset u) r = lockOf u r from fun _ => rfl,
    lockOf_releaseHeld_foldl p nodup_allRecords, left]
  simp only [mem_allRecords, true_and]
  rfl

/-- The lock is held by port `p` and its first waiter is port `q`. -/
def passes (p q : Port) (l : Lock) : Bool :=
  decide (l.holder = some p) && l.waits.head?.any fun w => decide (w.port = q)

theorem passes_iff (p q : Port) (l : Lock) :
    passes p q l = true ↔ l.holder = some p ∧ ∃ w ws, l.waits = w :: ws ∧ w.port = q := by
  simp only [passes, Bool.and_eq_true, decide_eq_true_eq]
  refine and_congr_right fun _ => ?_
  cases l.waits <;> simp

/-- What a port is told when it is granted the locks of a list of records, one after another (R88, R95). -/
def grantedAll (rs : List RecNo) (x : LockReport × Flags) : LockReport × Flags :=
  ({ x.1 with granted := rs.getLast?.or x.1.granted },
   { x.2 with lockGranted := x.2.lockGranted || !rs.isEmpty })

theorem grantedAll_nil (x : LockReport × Flags) : grantedAll [] x = x := by simp [grantedAll]

theorem grantedAll_cons (r : RecNo) (rs : List RecNo) (x : LockReport × Flags) :
    grantedAll rs (lockEvents r false false true x) = grantedAll (r :: rs) x := by
  cases h : rs.getLast? <;> simp [grantedAll, lockEvents, List.getLast?_cons, h]

theorem lockView_releaseHeld (p q : Port) (s : State) (r : RecNo) :
    lockView (releaseHeld p s r) q = lockEvents r false false (passes p q (lockOf s r)) (lockView s q) := by
  unfold releaseHeld
  split
  · next held => simp only [lockView_handOn, passes, held, decide_true, Bool.true_and]
  · next other => simp only [passes, other, decide_false, Bool.false_and, lockEvents_none]

theorem lockView_releaseHeld_foldl (p q : Port) {l : List RecNo} (once : l.Nodup) (s : State) :
    lockView (l.foldl (releaseHeld p) s) q = grantedAll (l.filter fun r => passes p q (lockOf s r)) (lockView s q) := by
  induction l generalizing s with
  | nil => exact (grantedAll_nil _).symm
  | cons r l ih =>
    obtain ⟨fresh, once⟩ := List.nodup_cons.mp once
    have others : (l.filter fun r' => passes p q (lockOf (releaseHeld p s r) r')) =
        l.filter fun r' => passes p q (lockOf s r') := List.filter_congr fun r' member => by
      have other : r ≠ r' := fun same => fresh (same ▸ member)
      simp only [lockOf_releaseHeld, other, false_and, if_false]
    rw [List.foldl_cons, ih once, others, lockView_releaseHeld, List.filter_cons]
    cases given : passes p q (lockOf s r) with
    | true => rw [grantedAll_cons, if_pos rfl]
    | false => rw [lockEvents_none, if_neg Bool.false_ne_true]

/-- The records whose locks the clear of port `p` hands on to port `q`, in order (R97). -/
def inherited (p : Port) (s : State) (q : Port) : List RecNo :=
  allRecords.filter fun r => passes p q (leaveWaits p (lockOf s r))

theorem mem_inherited_iff (p : Port) (s : State) (q : Port) (r : RecNo) :
    r ∈ inherited p s q ↔ (lockOf s r).holder = some p ∧
      ∃ w ws, (lockOf s r).waits.filter (fun w => decide (w.port ≠ p)) = w :: ws ∧ w.port = q := by
  simp only [inherited, List.mem_filter, mem_allRecords, true_and, passes_iff]
  rfl

theorem lockView_clearLocks (p : Port) (s : State) (q : Port) :
    lockView (clearLocks p s) q =
      (if q = p then LockReport.reset else (grantedAll (inherited p s q) (lockView s q)).1,
       (grantedAll (inherited p s q) (lockView s q)).2) := by
  have left : ∀ r, lockOf { s with locks := s.locks.map (leaveWaits p) } r = leaveWaits p (lockOf s r) :=
    fun r => Table.get_map _ _ _
  have told := lockView_releaseHeld_foldl p q nodup_allRecords { s with locks := s.locks.map (leaveWaits p) }
  simp only [left] at told
  rw [clearLocks_eq, show grantedAll (inherited p s q) (lockView s q) = _ from told.symm]
  by_cases hq : q = p
  · subst hq
    simp [lockView]
  · simp [lockView, hq]

/-! ## The session, the queue and the engine under a port clear (R57, R75) -/

theorem dir_layout_removeEntry (p : Port) (s : State) : (removeEntry p s).dir.layout = s.dir.layout := by
  simp only [removeEntry, undoEntry]
  repeat' split
  all_goals rfl

/-- A removed DELETE clears its record's delete-pending mark, and nothing else of a slot changes (R52, R61). -/
theorem slotOf_removeEntry (p : Port) (s : State) (r : RecNo) :
    slotOf (removeEntry p s) r = { slotOf s r with
      deletePending := (slotOf s r).deletePending &&
        !decide (s.queue.find? (fun e => decide (e.port = p)) = some ⟨p, .layout (.delete r)⟩) } := by
  cases found : s.queue.find? fun e => decide (e.port = p) with
  | none =>
    simp only [removeEntry, found]
    simp [slotOf]
  | some e =>
    obtain rfl : e.port = p := by simpa using List.find?_some found
    rw [removeEntry_of_find found]
    by_cases deletes : ∃ r', e.work = .layout (.delete r')
    · obtain ⟨r', work⟩ := deletes
      obtain ⟨q, w⟩ := e
      subst work
      rw [undoEntry_delete rfl, slotOf_setSlot]
      by_cases same : r' = r
      · subst same
        simp [slotOf]
      · simp [slotOf, same]
    · have other : e ≠ ⟨e.port, .layout (.delete r)⟩ := fun h => deletes ⟨r, congrArg Entry.work h⟩
      rw [undoEntry_of_not_delete (fun r' work => deletes ⟨r', work⟩)]
      simp [slotOf, other]

theorem clearSession_queue (p : Port) (s : State) :
    (clearSession p s).queue =
      if (s.sessions.get p).state = .queued then s.queue.filter fun e => e.port ≠ p else s.queue := by
  show (if (s.sessions.get p).state = .queued then removeEntry p s else s).queue = _
  split
  · exact removeEntry_queue p s
  · rfl

theorem clearSession_layout (p : Port) (s : State) : (clearSession p s).dir.layout = s.dir.layout := by
  show (if (s.sessions.get p).state = .queued then removeEntry p s else s).dir.layout = _
  split
  · exact dir_layout_removeEntry p s
  · rfl

/-- What a port's session and its queued entry leave behind in a slot when they go (R57). -/
theorem slotOf_clearSession (p : Port) (s : State) (r : RecNo) :
    slotOf (clearSession p s) r = { slotOf s r with
      deletePending := (slotOf s r).deletePending &&
        !(decide ((s.sessions.get p).state = .queued) &&
          decide (s.queue.find? (fun e => decide (e.port = p)) = some ⟨p, .layout (.delete r)⟩)) } := by
  show slotOf (if (s.sessions.get p).state = .queued then removeEntry p s else s) r = _
  split
  · next queued => simp only [slotOf_removeEntry, queued, decide_true, Bool.true_and]
  · next other => simp only [other, decide_false, Bool.false_and, Bool.not_false, Bool.and_true]

theorem detachEntry_engine (p : Port) (s : State) :
    (detachEntry p s).engine = { s.engine with
      detached := s.engine.detached ||
        (match s.engine.entry with | some e => decide (e.port = p) | none => false) } := by
  unfold detachEntry
  cases entry : s.engine.entry with
  | none => simp
  | some e =>
    by_cases own : e.port = p
    · simp [own]
    · simp [own]

end Sys2Proof.Machine

namespace Sys2Proof.Machine

open Sys2Proof

/-! ## The port clear, home by home (R164) -/

/-- A port clear up to the lock table: the port's transport, read, session, entry and result are gone. -/
def portWithdrawn (p : Port) (s : State) : State :=
  setResult p none (detachEntry p (clearSession p (clearRead p (clearTransport p s))))

theorem clearPort_portWithdrawn (p : Port) (s : State) :
    clearPort p s = clearNotices p (leaveWatchSets p (clearLocks p (portWithdrawn p s))) := rfl

section PortWithdrawn

variable (p : Port) (s : State)

/-- The end of the port's read, after its transport state. -/
theorem clearRead_clearTransport_only :
    Only { ports := true, arbiters := true, reads := true } s (clearRead p (clearTransport p s)) :=
  Only.trans (t := clearTransport p s) (.ofEq rfl) ((clearRead_only p _).mono (by decide))

theorem portWithdrawn_after_session :
    Only { engine := true, results := true } (clearSession p (clearRead p (clearTransport p s))) (portWithdrawn p s) :=
  ((detachEntry_only p _).mono (by decide)).trans ((setResult_only p none _).mono (by decide))

theorem portWithdrawn_only :
    Only { ports := true, arbiters := true, reads := true, sessions := true, queue := true, dir := true, engine := true,
           results := true } s (portWithdrawn p s) :=
  (((clearRead_clearTransport_only p s).mono (by decide)).trans ((clearSession_only p _).mono (by decide))).trans
    ((portWithdrawn_after_session p s).mono (by decide))

theorem portWithdrawn_ports :
    (portWithdrawn p s).ports =
      s.ports.set p { PortIf.reset with receiver := if s.csLow.get p then .ignoring else .idle } := by
  rw [(portWithdrawn_after_session p s).ports rfl, (clearSession_only p _).ports rfl, (clearRead_only p _).ports rfl]
  rfl

theorem portWithdrawn_sessions : (portWithdrawn p s).sessions = s.sessions.set p Session.reset := by
  rw [(portWithdrawn_after_session p s).sessions rfl, clearSession_sessions,
    (clearRead_clearTransport_only p s).sessions rfl]

theorem portWithdrawn_reads : (portWithdrawn p s).reads = s.reads.set p none := by
  rw [(portWithdrawn_after_session p s).reads rfl, (clearSession_only p _).reads rfl, clearRead_reads]
  rfl

theorem portWithdrawn_arbiters : (portWithdrawn p s).arbiters = (clearRead p (clearTransport p s)).arbiters := by
  rw [(portWithdrawn_after_session p s).arbiters rfl, (clearSession_only p _).arbiters rfl]

theorem portWithdrawn_queue :
    (portWithdrawn p s).queue =
      if (s.sessions.get p).state = .queued then s.queue.filter fun e => e.port ≠ p else s.queue := by
  have read := clearRead_clearTransport_only p s
  rw [(portWithdrawn_after_session p s).queue rfl, clearSession_queue, read.sessions rfl, read.queue rfl]

theorem portWithdrawn_engine :
    (portWithdrawn p s).engine = { s.engine with
      detached := s.engine.detached ||
        (match s.engine.entry with | some e => decide (e.port = p) | none => false) } := by
  rw [portWithdrawn, setResult_engine, detachEntry_engine, (clearSession_only p _).engine rfl,
    (clearRead_clearTransport_only p s).engine rfl]

theorem portWithdrawn_results : (portWithdrawn p s).results = s.results.set p none := by
  rw [portWithdrawn, setResult_results, (detachEntry_only p _).results rfl, (clearSession_only p _).results rfl,
    (clearRead_clearTransport_only p s).results rfl]

theorem portWithdrawn_layout : (portWithdrawn p s).dir.layout = s.dir.layout := by
  rw [(portWithdrawn_after_session p s).dir rfl, clearSession_layout, (clearRead_clearTransport_only p s).dir rfl]

theorem slotOf_portWithdrawn (r : RecNo) :
    slotOf (portWithdrawn p s) r = { slotOf s r with
      deletePending := (slotOf s r).deletePending &&
        !(decide ((s.sessions.get p).state = .queued) &&
          decide (s.queue.find? (fun e => decide (e.port = p)) = some ⟨p, .layout (.delete r)⟩)) } := by
  have read := clearRead_clearTransport_only p s
  have slot := slotOf_clearSession p (clearRead p (clearTransport p s)) r
  rw [slotOf, ← (portWithdrawn_after_session p s).dir rfl] at slot
  rw [slotOf, slot, slotOf, read.dir rfl, read.sessions rfl, read.queue rfl]
  rfl

/-- The arbiters after the clear of a port with no read in progress (R110). -/
theorem portWithdrawn_arbiters_none (h : s.reads.get p = none) : (portWithdrawn p s).arbiters = s.arbiters := by
  have read : (clearTransport p s).reads.get p = none := h
  rw [portWithdrawn_arbiters, clearRead, read]
  rfl

/-- A read that waits leaves the waiting reads of its plane (R37, R110). -/
theorem portWithdrawn_arbiters_waiting {rd : Read} (h : s.reads.get p = some rd) (waiting : rd.phase = .waiting) :
    (portWithdrawn p s).arbiters = s.arbiters.set rd.plane
      { s.arbiters.get rd.plane with waiting := (s.arbiters.get rd.plane).waiting.set p false } := by
  have read : (clearTransport p s).reads.get p = some rd := h
  simp only [portWithdrawn_arbiters, clearRead, read, waiting, withdrawRead]
  rfl

/-- A read that holds its plane goes on there as a discarded one (R110). -/
theorem portWithdrawn_arbiters_reading {rd : Read} (h : s.reads.get p = some rd) (reading : rd.phase = .reading) :
    (portWithdrawn p s).arbiters = s.arbiters.set rd.plane
      { s.arbiters.get rd.plane with holder := .discarded p (decide (rd.kind = .openCopy)) } := by
  have read : (clearTransport p s).reads.get p = some rd := h
  simp only [portWithdrawn_arbiters, clearRead, read, reading]
  rfl

end PortWithdrawn

section PortClear

variable (p : Port) (s : State)

/-- The lock table and the notice unit leave what the port's other blocks hold (R164). -/
theorem clearPort_after_withdrawn :
    Only { dir := true, locks := true, reports := true, notices := true, flags := true, masks := true }
      (portWithdrawn p s) (clearPort p s) :=
  (((clearLocks_only p _).mono (by decide)).trans ((leaveWatchSets_only p _).mono (by decide))).trans
    ((clearNotices_only p _).mono (by decide))

theorem clearPort_masks : (clearPort p s).masks = s.masks.set p Flags.full := by
  rw [clearPort_portWithdrawn, clearNotices, setNotices_masks, setMask_masks, setFlags_masks,
    (leaveWatchSets_only p _).masks rfl, (clearLocks_only p _).masks rfl, (portWithdrawn_only p s).masks rfl]

theorem clearPort_notices : (clearPort p s).notices = s.notices.set p [] := by
  rw [clearPort_portWithdrawn, clearNotices, setNotices_notices, setMask_notices, setFlags_notices,
    (leaveWatchSets_only p _).notices rfl, (clearLocks_only p _).notices rfl, (portWithdrawn_only p s).notices rfl]

/-- The whole next state, but for what the directory, the arbiters and the lock table make of the port's leaving. -/
theorem clearPort_eq :
    clearPort p s = { s with
      ports := s.ports.set p { PortIf.reset with receiver := if s.csLow.get p then .ignoring else .idle }
      sessions := s.sessions.set p Session.reset
      results := s.results.set p none
      masks := s.masks.set p Flags.full
      notices := s.notices.set p []
      reads := s.reads.set p none
      engine := { s.engine with
        detached := s.engine.detached || (match s.engine.entry with | some e => decide (e.port = p) | none => false) }
      queue := if (s.sessions.get p).state = .queued then s.queue.filter fun e => e.port ≠ p else s.queue
      dir := (clearPort p s).dir, arbiters := (clearPort p s).arbiters, locks := (clearPort p s).locks
      reports := (clearPort p s).reports, flags := (clearPort p s).flags } := by
  have after := clearPort_after_withdrawn p s
  rw [← clearPort_masks, ← clearPort_notices, ← portWithdrawn_ports, ← portWithdrawn_sessions, ← portWithdrawn_results,
    ← portWithdrawn_reads, ← portWithdrawn_engine, ← portWithdrawn_queue, ← after.ports rfl, ← after.sessions rfl,
    ← after.results rfl, ← after.reads rfl, ← after.engine rfl, ← after.queue rfl]
  exact (clearPort_only p s).toEq

theorem clearPort_arbiters : (clearPort p s).arbiters = (portWithdrawn p s).arbiters :=
  (clearPort_after_withdrawn p s).arbiters rfl

theorem clearPort_layout : (clearPort p s).dir.layout = s.dir.layout := by
  rw [clearPort_portWithdrawn, (clearNotices_only p _).dir rfl, leaveWatchSets, setSlots_dir, (clearLocks_only p _).dir rfl,
    portWithdrawn_layout]

theorem slotOf_leaveWatchSets (r : RecNo) :
    slotOf (leaveWatchSets p s) r = { slotOf s r with watch := (slotOf s r).watch.set p false } := Table.get_map _ _ _

/-- A slot after a port clear: the port watches it no more, and its queued DELETE marks it no more (R17, R57). -/
theorem slotOf_clearPort (r : RecNo) :
    slotOf (clearPort p s) r = { slotOf s r with
      watch := (slotOf s r).watch.set p false
      deletePending := (slotOf s r).deletePending &&
        !(decide ((s.sessions.get p).state = .queued) &&
          decide (s.queue.find? (fun e => decide (e.port = p)) = some ⟨p, .layout (.delete r)⟩)) } := by
  have slot : slotOf (clearLocks p (portWithdrawn p s)) r = slotOf (portWithdrawn p s) r := by
    rw [slotOf, (clearLocks_only p _).dir rfl, slotOf]
  rw [clearPort_portWithdrawn, slotOf, (clearNotices_only p _).dir rfl, ← slotOf, slotOf_leaveWatchSets, slot,
    slotOf_portWithdrawn]

theorem lockOf_clearPort (r : RecNo) :
    lockOf (clearPort p s) r =
      if (lockOf s r).holder = some p then handedOn (leaveWaits p (lockOf s r)) else leaveWaits p (lockOf s r) := by
  have before : lockOf (portWithdrawn p s) r = lockOf s r := by rw [lockOf, (portWithdrawn_only p s).locks rfl, lockOf]
  rw [clearPort_portWithdrawn, lockOf, (clearNotices_only p _).locks rfl, (leaveWatchSets_only p _).locks rfl, ← lockOf,
    lockOf_clearLocks, before]

/-- Another port is granted the locks handed on to it, and told nothing else (R88, R97). -/
theorem lockView_clearPort_ne {q : Port} (h : q ≠ p) :
    lockView (clearPort p s) q = grantedAll (inherited p s q) (lockView s q) := by
  have before := portWithdrawn_only p s
  have locks : inherited p (portWithdrawn p s) q = inherited p s q := by
    simp only [inherited, lockOf, before.locks rfl]
  have told := lockView_clearLocks p (portWithdrawn p s) q
  rw [if_neg h, locks, lockView, lockView, before.reports rfl, before.flags rfl] at told
  rw [clearPort_portWithdrawn, lockView, (clearNotices_only p _).reports rfl, clearNotices]
  simpa [h, lockView, (leaveWatchSets_only p _).reports rfl, (leaveWatchSets_only p _).flags rfl] using told

theorem clearPort_reports_self : (clearPort p s).reports.get p = LockReport.reset := by
  rw [clearPort_portWithdrawn, (clearNotices_only p _).reports rfl, (leaveWatchSets_only p _).reports rfl, clearLocks_eq,
    setReport_reports, PerPort.get_set_self]

/-- The port's flags are cleared but for RESET_SEEN (R125). -/
theorem clearPort_flags_self : (clearPort p s).flags.get p = { Flags.clear with resetSeen := (s.flags.get p).resetSeen } := by
  have flags : (clearLocks p (portWithdrawn p s)).flags.get p = _ :=
    congrArg Prod.snd (lockView_clearLocks p (portWithdrawn p s) p)
  rw [clearPort_portWithdrawn, clearNotices, setNotices_flags, setMask_flags, setFlags_flags,
    (leaveWatchSets_only p _).flags rfl, flags, grantedAll, lockView, (portWithdrawn_only p s).flags rfl]
  simp [clearedFlags, Flags.clear]

/-- What a port clear changes for another port: the grants of the locks handed on to it (R88, R97). -/
theorem clearPort_other {q : Port} (h : q ≠ p) (given : RecNo → Prop) (hg : ∀ r, r ∈ inherited p s q ↔ given r) :
    (clearPort p s).flags.get q =
      { s.flags.get q with lockGranted := ((clearPort p s).flags.get q).lockGranted } ∧
    (clearPort p s).reports.get q =
      { s.reports.get q with granted := ((clearPort p s).reports.get q).granted } ∧
    (((clearPort p s).flags.get q).lockGranted = true ↔ (s.flags.get q).lockGranted = true ∨ ∃ r, given r) ∧
    ((¬∃ r, given r) → ((clearPort p s).reports.get q).granted = (s.reports.get q).granted) ∧
    ((∃ r, given r) → ∃ r, given r ∧ ((clearPort p s).reports.get q).granted = some r) := by
  have view := lockView_clearPort_ne p s h
  have reports : (clearPort p s).reports.get q = (grantedAll (inherited p s q) (lockView s q)).1 := congrArg Prod.fst view
  have flags : (clearPort p s).flags.get q = (grantedAll (inherited p s q) (lockView s q)).2 := congrArg Prod.snd view
  simp only [reports, flags, ← hg]
  cases last : (inherited p s q).getLast? with
  | none =>
    have empty : inherited p s q = [] := List.getLast?_eq_none_iff.mp last
    simp [empty, grantedAll, lockView]
  | some r =>
    have member : r ∈ inherited p s q := List.mem_of_getLast? last
    have filled : (inherited p s q).isEmpty = false := List.isEmpty_eq_false_iff_exists_mem.mpr ⟨r, member⟩
    refine ⟨rfl, rfl, ?_, fun none => absurd ⟨r, member⟩ none, fun _ => ⟨r, member, ?_⟩⟩
    · simp only [grantedAll, filled, Bool.not_false, Bool.or_true, true_iff]
      exact .inr ⟨r, member⟩
    · simp only [grantedAll, last, Option.some_or]

end PortClear

/-- No port waits on a lock that it has left. -/
theorem waitsOn_leaveWaits (p : Port) (l : Lock) : waitsOn (leaveWaits p l) p = false := by simp [waitsOn, leaveWaits]

/-- Nor does the hand-on of a lock make a port wait on it. -/
theorem waitsOn_handedOn {p : Port} {l : Lock} (h : waitsOn l p = false) : waitsOn (handedOn l) p = false := by
  cases hw : l.waits with
  | nil => rw [handedOn_nil hw]; rfl
  | cons w ws =>
    rw [handedOn_cons hw]
    simp_all [waitsOn, grantedTo]

/-- A lock after a port clear, by its holder before (R88, R97). -/
theorem lockOf_clearPort_cases (p : Port) (s : State) (r : RecNo) :
    waitsOn (lockOf (clearPort p s) r) p = false ∧
    ((lockOf s r).holder ≠ some p →
      lockOf (clearPort p s) r = { lockOf s r with waits := (lockOf s r).waits.filter fun w => w.port ≠ p }) ∧
    ((lockOf s r).holder = some p →
      ((lockOf s r).waits.filter (fun w => w.port ≠ p) = [] → lockOf (clearPort p s) r = Lock.free) ∧
      ∀ w ws, (lockOf s r).waits.filter (fun w => w.port ≠ p) = w :: ws →
        lockOf (clearPort p s) r = ⟨some w.port, w.lease, false, ws⟩) := by
  have left := waitsOn_leaveWaits p (lockOf s r)
  rw [lockOf_clearPort]
  split
  · next held =>
    exact ⟨waitsOn_handedOn left, fun other => absurd held other,
      fun _ => ⟨fun none => handedOn_nil (l := leaveWaits p (lockOf s r)) none,
        fun _ _ first => handedOn_cons (l := leaveWaits p (lockOf s r)) first⟩⟩
  · next other => exact ⟨left, fun _ => rfl, fun held => absurd held other⟩

/-! ## The clear line (R162, R163) -/

theorem exec_portClear_taken {s : State} {p : Port} (high : s.clearLow.get p = false) (free : resetInForce s = false) :
    exec (.portClear p) s = .next (clearPort p { s with clearLow := s.clearLow.set p true }) :=
  congrArg Host.Outcome.next ((if_neg (by simp [high])).trans (if_neg (by simpa [resetInForce] using free)))

theorem exec_portClear_reset {s : State} {p : Port} (high : s.clearLow.get p = false) (reset : resetInForce s = true) :
    exec (.portClear p) s = .next { s with clearLow := s.clearLow.set p true } :=
  congrArg Host.Outcome.next ((if_neg (by simp [high])).trans (if_pos reset))

/-- Settles O43: the clear block by block, the line that falls under a reset or is low, and the line's rise. -/
theorem portClears : Obligations.PortClears := by
  refine fun s p => ⟨fun high free => ⟨_, exec_portClear_taken high free, clearPort_eq p _, clearPort_layout p _,
    fun r => ?_, fun none => ?_, fun rd read waiting => ?_, fun rd read reading => ?_, clearPort_flags_self p _,
    clearPort_reports_self p _, fun q hq => ?_, lockOf_clearPort_cases p _⟩, exec_portClear_reset,
    fun low => congrArg Host.Outcome.next (if_pos low), fun low => ⟨fun fallen => congrArg Host.Outcome.next (if_pos fallen),
    fun high => congrArg Host.Outcome.next (if_neg (by simp [high]))⟩⟩
  · rw [slotOf_clearPort]
    exact ⟨rfl, rfl, rfl, rfl⟩
  · exact (clearPort_arbiters p _).trans (portWithdrawn_arbiters_none p _ none)
  · exact (clearPort_arbiters p _).trans (portWithdrawn_arbiters_waiting p _ read waiting)
  · exact (clearPort_arbiters p _).trans (portWithdrawn_arbiters_reading p _ read reading)
  · exact clearPort_other p _ hq _ (mem_inherited_iff p _ q)

end Sys2Proof.Machine

namespace Sys2Proof.Machine

open Sys2Proof

/-! # The port protocol (chapter 11)

## NOP and DEVICE STATUS (R177, R178) -/

/-- Settles O10: NOP is served by the device state alone. -/
theorem nopEchoes : Obligations.NopEchoes := by
  intro s p tag body h hb
  have taken : exec (.nop p tag body) s = .next (writeReply p (serveNop p body (awaiting s p tag body))) :=
    congrArg Host.Outcome.next (takeRequest_accepted _ _ _ _ _ _ h hb)
  rw [taken]
  split
  · next ready => rw [serveNop, whenReady_ready (u := awaiting s p tag body) ready, respond_awaiting_self]
  · next other => rw [serveNop, whenReady_notReady (u := awaiting s p tag body) other, refuse_awaiting_self]

theorem exec_deviceStatus {s : State} {p : Port} (tag : Byte) {body : List Byte} (h : CanRequest s p)
    (hb : body.length ≤ 252) :
    exec (.deviceStatus p tag body) s =
      .next (writeReply p (serveDeviceStatus p body (awaiting s p tag body))) :=
  congrArg Host.Outcome.next (takeRequest_accepted _ _ _ _ _ _ h hb)

/-- The report reads nothing of the ports, so the request's own transport state does not show in it. -/
theorem deviceReport_awaiting (s : State) (p : Port) (tag : Byte) (body : List Byte) :
    deviceReport (awaiting s p tag body) = deviceReport s := rfl

/-- The layout fields as DEVICE STATUS shows them (R128, R156, R178). -/
theorem layoutFields_eq (s : State) :
    genBytes (layoutReport s).1 ++ [optPlaneByte (layoutReport s).2.1] =
      if s.device = .mounting then [0, 0, 0xFF]
      else match s.dir.layout with
        | some v => genBytes v.generation ++ [planeByte v.current]
        | none => [0, 0, 0xFF] := by
  rw [layoutReport]
  split
  · rfl
  · cases h : s.dir.layout <;> simp only [layoutGeneration, layoutCurrent, h] <;> rfl

/-- The number of defined records as DEVICE STATUS shows it (R17, R156). -/
theorem definedField_eq (s : State) :
    natByte (layoutReport s).2.2 =
      if s.device = .mounting then 0 else natByte (s.dir.slots.cells.countP fun x => x.entry.isSome) := by
  rw [layoutReport]
  split
  · rfl
  · rw [definedCount, List.countP_eq_length_filter]

/-- The parts of the report in R178's order, with the layout fields together. -/
theorem deviceReport_eq (s : State) :
    deviceReport s =
      [deviceByte s.device, causeByte s.rc.cause, boolByte s.rc.warning, boolByte s.rc.restartPending, portByte s.rc.admin] ++
        (genBytes (layoutReport s).1 ++ [optPlaneByte (layoutReport s).2.1]) ++ [engineByte s.engine.state] ++
        (match s.engine.entry with
         | some e => entryBytes e
         | none => [noneByte, noneByte, noneByte]) ++
        [natByte (layoutReport s).2.2, natByte s.queue.length] ++ s.queue.flatMap entryBytes := by
  cases h : s.engine.entry <;> simp only [deviceReport, h, List.append_assoc, List.cons_append, List.nil_append]

/-- Settles O12: the report field by field, in MOUNTING and in the other device states, and a body that is refused. -/
theorem deviceStatusReports : Obligations.DeviceStatusReports := by
  refine fun s p tag h => ⟨?_, fun body hl hb => ?_⟩
  · have empty : emptyBody [] = some () := rfl
    rw [exec_deviceStatus tag h (by simp), serveDeviceStatus, withBody_some empty, respond_awaiting_self,
      deviceReport_awaiting, deviceReport_eq, layoutFields_eq, definedField_eq]
    rfl
  · rw [exec_deviceStatus tag h hl, serveDeviceStatus, withBody_none (emptyBody_none body hb), refuse_awaiting_self]

/-! ## REQUEST frames with a request in progress, and frames in error (R170, R174) -/

/-- Settles O4: the request is judged BUSY, and its service is not reached. -/
theorem busyRequests : Obligations.BusyRequests := fun s p c tag body h busy hb => by
  rw [exec_command, takeRequest_busy _ _ _ _ _ _ h busy hb]

/-- A frame that is judged at all has a bit. -/
theorem frameBits_ne_zero {bytes : List Byte} {extra : Nat} (h : frameVerdict bytes extra = .frameError) :
    frameBits bytes extra ≠ 0 := by
  intro none
  obtain ⟨rfl, rfl⟩ : bytes = [] ∧ extra = 0 := by
    simpa [frameBits] using none
  exact absurd h (by decide)

/-- What a frame calls for, by its first byte (R166). -/
theorem frameStream_eq (f : FrameIn) (bytes : List Byte) :
    frameStream f bytes = match bytes.head? with
      | some 0xA2 => fetchStream f
      | some 0xA3 => pollStream f
      | _ => [f.status] := by
  unfold frameStream
  cases bytes.head? with
  | none => rfl
  | some t =>
    by_cases fetch : t = 0xA2
    · subst fetch
      rfl
    · by_cases poll : t = 0xA3
      · subst poll
        rfl
      · simp only [if_neg fetch, if_neg poll]
        split
        · next h => exact absurd (Option.some.inj h) fetch
        · next h => exact absurd (Option.some.inj h) poll
        · rfl

theorem exec_frameError {s : State} {p : Port} {bytes : List Byte} {extra : Nat} (part : FramePart)
    (h : frameVerdict bytes extra = .frameError) :
    exec (.frameError p bytes extra part) s = .next (takeFrame p bytes extra (recordOutcome p .frameError) part s) :=
  congrArg Host.Outcome.next (if_pos h)

/-- Settles O5: the frame is taken, shows what its first byte calls for, and its judgement is FRAME_ERROR. -/
theorem frameErrorsAreRecorded : Obligations.FrameErrorsAreRecorded := fun s p bytes extra h error => by
  rw [exec_frameError .whole error, takeFrame_taken p bytes extra _ s h (frameBits_ne_zero error), frameStream_eq]
  simp only [recordOutcome, setPort, PerPort.get_set_self, PerPort.set_set]
  rfl

/-! ## FETCH and POLL (R175, R176) -/

/-- The stream of a FETCH is its head and the head's CRC-8: of the copied response, or NO_RESPONSE (R175). -/
theorem fetchStream_eq {f : FrameIn} {head : List Byte}
    (h : (∃ r, f.slot = some r ∧ head = [f.status, r.tag, r.code.toByte, BitVec.ofNat 8 r.body.length,
        BitVec.ofNat 8 (r.body.length / 256)] ++ r.body) ∨
      (f.slot = none ∧ head = [f.status, f.tag, 0x04, 0, 0])) :
    fetchStream f = head ++ [crc8 head] := by
  obtain ⟨r, slot, rfl⟩ | ⟨slot, rfl⟩ := h
  · simp [fetchStream, slot, genBytes_ofNat]
  · simp only [fetchStream, slot]
    rfl

/-- What whole bytes shift out of a stream: the stream, then 0xFF. -/
theorem shifted_whole (stream : List Byte) (n : Nat) :
    shifted stream n 0 = { bytes := (stream ++ List.replicate n 0xFF).take n, tail := [] } := rfl

theorem frameStream_fetch (f : FrameIn) (sent : List Byte) : frameStream f (0xA2 :: sent) = fetchStream f := rfl

theorem frameStream_poll (f : FrameIn) (sent : List Byte) : frameStream f (0xA3 :: sent) = pollStream f := rfl

theorem frameBits_cons (b : Byte) (sent : List Byte) : frameBits (b :: sent) 0 = 8 * (1 + sent.length) := by
  simp [frameBits, Nat.add_comm]

theorem frameBits_cons_ne_zero (b : Byte) (sent : List Byte) : frameBits (b :: sent) 0 ≠ 0 := by
  rw [frameBits_cons]
  omega

/-- A flag as a byte is bit 0 (R182). -/
theorem getElem_boolByte (b : Bool) (i : Nat) (h : i < 8) : (boolByte b)[i] = (decide (i = 0) && b) := by
  cases b <;> simp [boolByte, BitVec.getElem_one]

/-- Each flag in its bit, COMMIT_DONE lowest, and RESET_SEEN in a byte of its own (R180). -/
theorem flagsBytes_bits (f : Flags) : ∃ lo : Byte, flagsBytes f = [lo, if f.resetSeen then 1 else 0] ∧
    lo.getLsbD 0 = f.commitDone ∧ lo.getLsbD 1 = f.lockGranted ∧ lo.getLsbD 2 = f.lockTimeout ∧
    lo.getLsbD 3 = f.leaseLost ∧ lo.getLsbD 4 = f.noticePending ∧ lo.getLsbD 5 = f.noticeOverflow ∧
    lo.getLsbD 6 = f.layoutChanged ∧ lo.getLsbD 7 = f.supplyWarn := by
  refine ⟨_, rfl, ?_⟩
  simp [getElem_boolByte]

/-- Settles O6: the two streams, and the flags bit by bit. -/
theorem fetchAndPollShowTheState : Obligations.FetchAndPollShowTheState := by
  refine ⟨fun s p sent head h shown => ?_, fun s p sent h => ?_, flagsBytes_bits⟩
  · have taken : exec (.fetch p sent) s = .next (takeFrame p (0xA2 :: sent) 0 id .whole s) := rfl
    rw [taken, takeFrame_taken p _ 0 _ s h (frameBits_cons_ne_zero _ _), frameStream_fetch,
      fetchStream_eq (f := snapshot s p) shown, List.length_cons, Nat.add_comm, shifted_whole]
    rfl
  · have taken : exec (.poll p sent) s = .next (takeFrame p (0xA3 :: sent) 0 id .whole s) := rfl
    rw [taken, takeFrame_taken p _ 0 _ s h (frameBits_cons_ne_zero _ _), frameStream_poll, List.length_cons, Nat.add_comm,
      shifted_whole]
    rfl

/-! ## The status byte and the attention line (R123, R167) -/

theorem resetInForce_eq_false_iff (s : State) : resetInForce s = false ↔ s.rc.sources = Sources.none := by
  rw [resetInForce]
  obtain ⟨supply, pin, restart⟩ := s.rc.sources
  simp [Sources.none, and_assoc]

theorem anyEnabled_iff (f m : Flags) : anyEnabled f m = true ↔
    (f.commitDone ∧ m.commitDone) ∨ (f.lockGranted ∧ m.lockGranted) ∨ (f.lockTimeout ∧ m.lockTimeout) ∨
      (f.leaseLost ∧ m.leaseLost) ∨ (f.noticePending ∧ m.noticePending) ∨ (f.noticeOverflow ∧ m.noticeOverflow) ∨
      (f.layoutChanged ∧ m.layoutChanged) ∨ (f.supplyWarn ∧ m.supplyWarn) ∨ (f.resetSeen ∧ m.resetSeen) := by
  simp only [anyEnabled, Bool.or_eq_true, Bool.and_eq_true, or_assoc]

theorem attention_iff (s : State) (p : Port) : attention s p = true ↔
    anyEnabled (s.flags.get p) (s.masks.get p) = true ∧ s.rc.sources = Sources.none ∧ s.clearLow.get p = false := by
  simp only [attention, Bool.and_eq_true, Bool.not_eq_true', resetInForce_eq_false_iff, and_assoc]

/-- The outcome code is two bits wide (R180). -/
theorem getElem_outcomeByte (o : FrameOutcome) (i : Nat) (h : i < 8) (wide : 2 ≤ i) : (outcomeByte o)[i] = false := by
  have low : (outcomeByte o).toNat < 2 ^ 2 := by cases o <;> decide
  rw [BitVec.getElem_eq_testBit_toNat]
  exact Nat.testBit_lt_two_pow (low.trans_le (Nat.pow_le_pow_right (by decide) wide))

/-- Settles O7: the status byte bit by bit, its outcome field by width, and the attention line's three conditions. -/
theorem statusByteAndAttention : Obligations.StatusByteAndAttention := by
  refine fun s p => ⟨?_, ?_, ?_, ?_, ?_, ?_, ?_, ?_⟩
  · simp [statusByte, getElem_boolByte, getElem_outcomeByte]
  · simp [statusByte, getElem_boolByte, getElem_outcomeByte]
  · simp [statusByte, getElem_boolByte, getElem_outcomeByte]
  · apply BitVec.eq_of_getElem_eq
    intro i hi
    by_cases wide : 2 ≤ i
    · rw [getElem_outcomeByte _ i hi wide]
      interval_cases i <;> simp
    · interval_cases i <;> simp [statusByte, getElem_boolByte]
  · simp [statusByte, getElem_boolByte]
  · simp [statusByte, getElem_boolByte]
  · simp [statusByte, getElem_boolByte]
  · rw [attention_iff, anyEnabled_iff]

/-! ## Frames and commands (R169, R170, R181) -/

/-- A request's code byte names it (R181). -/
theorem ofByte_toByte (c : RequestCode) : RequestCode.ofByte c.toByte = some c := by cases c <;> rfl

/-- A REQUEST frame of at most 252 body bytes passes check 1 of R170. -/
theorem parseRequest_requestFrameBytes (c : RequestCode) (tag : Byte) {body : List Byte} (h : body.length ≤ 252) :
    parseRequest (requestFrameBytes c tag body) = some (c, tag, body) := by
  have len : (BitVec.ofNat 8 body.length).toNat = body.length := by
    rw [BitVec.toNat_ofNat]
    omega
  have checked : (requestFrameBytes c tag body).take (4 + body.length) = requestHead c tag body :=
    List.take_left' (by simp [requestHead]; omega)
  have frame : requestFrameBytes c tag body =
    0xA1 :: c.toByte :: tag :: BitVec.ofNat 8 body.length :: (body ++ [crc8 (requestHead c tag body)]) := rfl
  rw [frame] at checked ⊢
  simp only [parseRequest, len, checked, List.length_append, List.length_singleton, List.getLast?_concat, List.take_left,
    ofByte_toByte, Option.map_some, Config.maxBody, h, and_self, if_true]

theorem frameVerdict_request (c : RequestCode) (tag : Byte) {body : List Byte} (h : body.length ≤ 252) :
    frameVerdict (requestFrameBytes c tag body) 0 = .request c tag body := by
  have parsed := parseRequest_requestFrameBytes c tag h
  obtain ⟨rest, typed⟩ : ∃ rest, requestFrameBytes c tag body = 0xA1 :: rest := ⟨_, rfl⟩
  rw [typed] at parsed ⊢
  rw [frameVerdict, if_neg (by simp), if_neg (by simp)]
  simp only [List.head?_cons, if_true, parsed]

/-- The commands that a frame can be, each with its frame: `encodeFrame`'s first 23 cases are the requests, the next are
FETCH, POLL, a frame in error and what is no whole frame. -/
theorem encodeFrame_cases {i : Instr} {p : Port} {bytes : List Byte} {extra : Nat}
    (h : encodeFrame i = some (p, bytes, extra)) :
    (∃ c tag body, bytes = requestFrameBytes c tag body ∧ extra = 0 ∧ i = c.command p tag body) ∨
    (∃ sent, bytes = 0xA2 :: sent ∧ extra = 0 ∧ i = .fetch p sent) ∨
    (∃ sent, bytes = 0xA3 :: sent ∧ extra = 0 ∧ i = .poll p sent) ∨
    (frameVerdict bytes extra = .frameError ∧ i = .frameError p bytes extra) := by
  unfold encodeFrame at h
  split at h
  case h_24 | h_25 =>
    obtain ⟨rfl, rfl, rfl⟩ : _ ∧ _ ∧ _ := by simpa using h
    simp
  case h_26 =>
    split at h
    · next error =>
      obtain ⟨rfl, rfl, rfl⟩ : _ ∧ _ ∧ _ := by simpa using h
      exact .inr (.inr (.inr ⟨error, rfl⟩))
    · simp at h
  case h_27 => simp at h
  all_goals
    obtain ⟨rfl, rfl, rfl⟩ : _ ∧ _ ∧ _ := by simpa using h
    exact .inl ⟨_, _, _, rfl, rfl, rfl⟩

theorem wf_command (c : RequestCode) (p : Port) (tag : Byte) (body : List Byte) (part : FramePart) :
    (c.command p tag body part).wf = bodyOk body := by cases c <;> rfl

/-- Settles O8: a frame's first byte and its length tell the four kinds of command apart. -/
theorem framesRoundTrip : Obligations.FramesRoundTrip := by
  intro i p bytes extra wf encoded
  obtain ⟨c, tag, body, rfl, rfl, rfl⟩ | ⟨sent, rfl, rfl, rfl⟩ | ⟨sent, rfl, rfl, rfl⟩ | ⟨error, rfl⟩ :=
    encodeFrame_cases encoded
  · have hb : body.length ≤ 252 := of_decide_eq_true ((wf_command c p tag body .whole).symm.trans wf)
    simp only [decodeFrame, frameVerdict_request c tag hb]
  · rfl
  · rfl
  · simp only [decodeFrame, error]

end Sys2Proof.Machine

namespace Sys2Proof.Machine

open Sys2Proof

/-! # A frame by its parts (log 5)

## What a request's service does to the transport state (R171, R174) -/

/-- Every port keeps its receiver and its chip select (R166). -/
structure LinesStay (s t : State) : Prop where
  receiver : ∀ q, (t.ports.get q).receiver = (s.ports.get q).receiver
  csLow : t.csLow = s.csLow

/-- A port's response is decided, or not; the transport state keeps everything else (R171). -/
structure Decides (p : Port) (s t : State) : Prop where
  ports : ∃ due, t.ports = s.ports.set p { s.ports.get p with due := due }
  csLow : t.csLow = s.csLow

/-- What a request's service leaves of the transport state. It decides the response to its own request, and a DELETE ends
the OPENs of its record besides, so its port keeps all but the response due unless it reads (R45, R171). -/
structure Serves (p : Port) (s t : State) : Prop where
  lines : LinesStay s t
  inProgress : (t.ports.get p).inProgress = (s.ports.get p).inProgress ∨ (t.ports.get p).inProgress = none
  own : s.reads.get p = none → t.ports.get p = { s.ports.get p with due := (t.ports.get p).due }

theorem LinesStay.refl (s : State) : LinesStay s s := ⟨fun _ => rfl, rfl⟩

theorem LinesStay.trans {s t u : State} (x : LinesStay s t) (y : LinesStay t u) : LinesStay s u :=
  ⟨fun q => (y.receiver q).trans (x.receiver q), y.csLow.trans x.csLow⟩

theorem Decides.trans {p : Port} {s t u : State} (x : Decides p s t) (y : Decides p t u) : Decides p s u := by
  obtain ⟨⟨_, first⟩, cs⟩ := x
  obtain ⟨⟨due, second⟩, cs'⟩ := y
  refine ⟨⟨due, ?_⟩, cs'.trans cs⟩
  rw [second, first, PerPort.get_set_self, PerPort.set_set]

theorem Decides.lines {p : Port} {s t : State} (x : Decides p s t) : LinesStay s t := by
  obtain ⟨⟨due, ports⟩, cs⟩ := x
  refine ⟨fun q => ?_, cs⟩
  rw [ports, PerPort.get_set]
  split
  · subst_vars; rfl
  · rfl

theorem Decides.serves {p : Port} {s t : State} (x : Decides p s t) : Serves p s t := by
  have lines := x.lines
  obtain ⟨⟨due, ports⟩, -⟩ := x
  have own : t.ports.get p = { s.ports.get p with due := due } := by rw [ports, PerPort.get_set_self]
  exact ⟨lines, .inl (by rw [own]), fun _ => by rw [own]⟩

section Only

variable {h : Homes} {s t : State} (x : Only h s t)

include x

theorem Only.lines (hp : h.ports = false := by rfl) (hc : h.csLow = false := by rfl) : LinesStay s t :=
  ⟨fun q => by rw [x.ports hp], x.csLow hc⟩

theorem Only.decides {p : Port} (hp : h.ports = false := by rfl) (hc : h.csLow = false := by rfl) : Decides p s t :=
  ⟨⟨(s.ports.get p).due, by rw [x.ports hp, PerPort.set_get]⟩, x.csLow hc⟩

end Only

theorem respond_decides (p : Port) (c : ResultCode) (b : List Byte) (s : State) : Decides p s (respond p c b s) := by
  refine ⟨?_, (respond_only p c b s).csLow rfl⟩
  unfold respond
  split
  · exact ⟨_, rfl⟩
  · exact ⟨_, (PerPort.set_get _ _).symm⟩

/-- An effect outside the transport state, and the response to it. -/
theorem Only.responds {h : Homes} {s t : State} (x : Only h s t) {p : Port} (c : ResultCode) (b : List Byte)
    (hp : h.ports = false := by rfl) (hc : h.csLow = false := by rfl) : Decides p s (respond p c b t) :=
  (x.decides hp hc).trans (respond_decides p c b t)

section Services

variable (p : Port) (s : State)

theorem refuse_decides (c : ResultCode) : Decides p s (refuse p c s) := respond_decides p c [] s

theorem storeStaged_decides (n o : Nat) (data : List Byte) : Decides p s (storeStaged p n o data s) :=
  (setSession_only p _ s).responds _ _

theorem startRead_decides (k : ReadKind) (r : RecNo) (e : LayoutEntry) (c : Plane) : Decides p s (startRead p k r e c s) :=
  (startRead_only p k r e c s).decides

theorem enqueue_decides (w : Work) : Decides p s (enqueue p w s) :=
  Only.responds (h := { sessions := true, queue := true }) (.ofEq rfl) _ _

theorem lockRecord_decides (r : RecNo) (lease wait : Nat) : Decides p s (lockRecord p r lease wait s) := by
  simp only [lockRecord]
  repeat' split
  · exact (setLock_only r _ s).responds _ _
  · exact (setLock_only r _ s).responds _ _
  · exact respond_decides p _ _ s
  · exact refuse_decides p s _
  · exact (setLock_only r _ s).responds _ _

theorem unlockRecord_decides (r : RecNo) : Decides p s (unlockRecord p r s) := by
  simp only [unlockRecord]
  repeat' split
  · exact (handOn_only r s).responds _ _
  · exact (setLock_only r _ s).responds _ _
  · exact refuse_decides p s _

/-- ABANDON by session state (R51, R52). -/
theorem serveAbandon_decides (body : List Byte) : Decides p s (serveAbandon p body s) := by
  have no := refuse_decides p s
  refine whenReady_cases no fun _ => withBody_cases no fun _ => ?_
  split
  · exact respond_decides p _ _ s
  · exact (setSession_only p _ s).responds _ _
  · exact ((removeEntry_only p s).decides.trans (setSession_only p _ _).decides).trans (respond_decides p _ _ _)
  · exact no _

/-- OPEN: STAGING at once, or a read that goes on (R43, R44). -/
theorem serveOpenRecord_decides (body : List Byte) : Decides p s (serveOpenRecord p body s) := by
  have no := refuse_decides p s
  refine whenReady_cases no fun _ => whenSession_cases no <| withBody_cases no fun (r, m) =>
    withRecord_cases no fun e _ => refuseIf_cases no fun _ => refuseIf_cases no fun _ => ?_
  cases m with
  | blank => exact (setSession_only p _ s).responds _ _
  | copy => exact withContent_cases no fun c => startRead_decides p s _ r e c

theorem serveAcknowledge_decides (body : List Byte) : Decides p s (serveAcknowledge p body s) :=
  withBody_cases (refuse_decides p s) fun _ => (setFlags_only p _ s).responds _ _

theorem serveSetAttentionMask_decides (body : List Byte) : Decides p s (serveSetAttentionMask p body s) :=
  withBody_cases (refuse_decides p s) fun _ => (setMask_only p _ s).responds _ _

/-- The entry of a request that sets nothing else joins the queue (R129). -/
theorem acceptLayout_decides (op : LayoutOp) : Decides p s (acceptLayout p op id s) :=
  acceptLayout_cases (refuse_decides p s) (enqueue_decides p s _)

/-- Every service but DELETE's decides the response to its own request at most. -/
theorem service_decides {c : RequestCode} (hc : c ≠ .delete) (body : List Byte) : Decides p s (service c p body s) := by
  have no := refuse_decides p s
  have responds := fun c b => respond_decides p c b s
  cases c with
  | nop => exact whenReady_cases no fun _ => responds _ _
  | queryRecord => exact whenReady_cases no fun _ => withBody_cases no fun _ => responds _ _
  | readRecord =>
    exact whenReady_cases no fun _ => withBody_cases no fun (r, _, _) => withRecord_cases no fun e _ =>
      refuseIf_cases no fun _ => withContent_cases no fun c => refuseIf_cases no fun _ => startRead_decides p s _ r e c
  | deviceStatus => exact withBody_cases no fun _ => responds _ _
  | openRecord => exact serveOpenRecord_decides p s body
  | stage =>
    refine whenReady_cases no fun _ => whenSession_cases no ?_
    repeat' split
    · exact storeStaged_decides p s _ _ _
    · exact responds _ _
    · exact responds _ _
  | append =>
    exact whenReady_cases no fun _ => whenSession_cases no <| withBody_cases no fun _ => storeStaged_decides p s _ _ _
  | commit =>
    refine whenReady_cases no fun _ => whenSession_cases no <| withBody_cases no fun _ => refuseIf_cases no fun _ =>
      refuseIf_cases no fun _ => refuseIf_cases no fun _ => ?_
    unfold acceptCommit
    split
    · exact enqueue_decides p s _
    · exact no _
  | abandon => exact serveAbandon_decides p s body
  | fetchCommitResult =>
    refine whenReady_cases no fun _ => withBody_cases no fun _ => ?_
    split
    · exact responds _ _
    · exact no _
  | lock =>
    exact whenReady_cases no fun _ => withBody_cases no fun _ => withRecord_cases no fun _ _ =>
      refuseIf_cases no fun _ => refuseIf_cases no fun _ => lockRecord_decides p s _ _ _
  | unlock =>
    exact whenReady_cases no fun _ => withBody_cases no fun r => withRecord_cases no fun _ _ => unlockRecord_decides p s r
  | fetchLockReport => exact whenReady_cases no fun _ => withBody_cases no fun _ => responds _ _
  | watch =>
    exact whenReady_cases no fun _ => withBody_cases no fun r => withRecord_cases no fun _ _ => refuseIf_cases no fun _ =>
      (setSlot_only r _ s).responds _ _
  | unwatch => exact whenReady_cases no fun _ => withBody_cases no fun r => (stopWatching_only r p s).responds _ _
  | fetchNotice =>
    refine whenReady_cases no fun _ => withBody_cases no fun _ => ?_
    split
    · exact no _
    · exact (setNotices_only p _ s).responds _ _
  | acknowledge => exact serveAcknowledge_decides p s body
  | setAttentionMask => exact serveSetAttentionMask_decides p s body
  | format => exact serveLayout_cases no fun _ _ => refuseIf_cases no fun _ => acceptLayout_decides p s _
  | define =>
    exact serveLayout_cases no fun _ _ => refuseIf_cases no fun _ => refuseIf_cases no fun _ => refuseIf_cases no fun _ =>
      acceptLayout_decides p s _
  | delete => exact absurd rfl hc
  | setAccess => exact serveLayout_cases no fun _ _ => withRecord_cases no fun _ _ => acceptLayout_decides p s _
  | restart =>
    exact refuseIf_cases no fun _ => refuseIf_cases no fun _ => withBody_cases no fun _ => (setRc_only _ s).responds _ _

end Services

/-! ### DELETE, which ends other requests (R45, R132) -/

theorem answeredWith_receiver (c : ResultCode) (x : PortIf) : (answeredWith c x).receiver = x.receiver := by
  unfold answeredWith
  split <;> rfl

/-- An answer ends the request in progress. -/
theorem answeredWith_none (c : ResultCode) (x : PortIf) : (answeredWith c x).inProgress = none := by
  unfold answeredWith
  split
  · rfl
  · assumption

namespace PortView

variable (r : RecNo) (v : PortView)

/-- A port's read is withdrawn and answered, or its transport state stays. -/
theorem openRefused_port : (v.openRefused r).port = v.port ∨ (v.openRefused r).port = answeredWith .inUse v.port := by
  unfold openRefused
  repeat' split
  · exact .inr rfl
  · exact .inl rfl
  · exact .inl rfl
  · exact .inl rfl

theorem recordGone_port : (v.recordGone r).port = v.port ∨ ∃ c, (v.recordGone r).port = answeredWith c v.port := by
  unfold recordGone
  split
  · split
    · exact .inr ⟨_, rfl⟩
    · exact .inl rfl
  · exact .inl rfl

end PortView

theorem markDeleted_serves (r : RecNo) (p : Port) (s : State) : Serves p s (markDeleted r s) := by
  have view := fun q => portView_markDeleted r s q
  have port : ∀ q, (markDeleted r s).ports.get q = s.ports.get q ∨
      (markDeleted r s).ports.get q = answeredWith .inUse (s.ports.get q) := fun q => by
    have moved := PortView.openRefused_port r (portView s q)
    rwa [← view] at moved
  refine ⟨⟨fun q => ?_, (markDeleted_only r s).csLow rfl⟩, ?_, fun noRead => ?_⟩
  · rcases port q with same | answered
    · rw [same]
    · rw [answered, answeredWith_receiver]
  · rcases port p with same | answered
    · exact .inl (by rw [same])
    · exact .inr (by rw [answered, answeredWith_none])
  · have same := view p
    rw [PortView.openRefused_other fun rd read => absurd (noRead.symm.trans read) (by simp)] at same
    have same : (markDeleted r s).ports.get p = s.ports.get p := congrArg PortView.port same
    rw [same]

theorem Decides.then_serves {p : Port} {s t u : State} (x : Decides p s t) (reads : t.reads = s.reads) (y : Serves p t u) :
    Serves p s u := by
  obtain ⟨lines, first, same⟩ := x.serves
  refine ⟨lines.trans y.lines, ?_, fun noRead => ?_⟩
  · rcases y.inProgress with kept | ended
    · rwa [kept]
    · exact .inr ended
  · have kept := y.own (by rwa [reads])
    rw [same noRead] at kept
    exact kept

theorem serveDelete_serves (p : Port) (body : List Byte) (s : State) : Serves p s (serveDelete p body s) := by
  have no := fun c => (refuse_decides p s c).serves
  refine serveLayout_cases no fun _ r => withRecord_cases no fun _ _ => refuseIf_cases no fun _ =>
    acceptLayout_cases no ?_
  exact (enqueue_decides p s _).then_serves ((enqueue_only p _ s).reads rfl) (markDeleted_serves r p _)

theorem service_serves (c : RequestCode) (p : Port) (body : List Byte) (s : State) : Serves p s (service c p body s) := by
  by_cases delete : c = .delete
  · subst delete
    exact serveDelete_serves p body s
  · exact (service_decides p s delete body).serves

end Sys2Proof.Machine

namespace Sys2Proof.Machine

open Sys2Proof

/-! ## What other commands do to a frame in progress (R162, R163, R166) -/

theorem LinesStay.forPorts {f : Port → State → State} (x : ∀ p s, LinesStay s (f p s)) (s : State) :
    LinesStay s (forPorts f s) :=
  forPorts_induct (LinesStay s) f (fun p u hu => hu.trans (x p u)) s (.refl s)

theorem setPort_lines {p : Port} {x : PortIf} {s : State} (h : x.receiver = (s.ports.get p).receiver) :
    LinesStay s (setPort p x s) := by
  refine ⟨fun q => ?_, rfl⟩
  rw [setPort_ports, PerPort.get_set]
  split
  · subst_vars
    exact h
  · rfl

theorem writeReply_lines (p : Port) (s : State) : LinesStay s (writeReply p s) := by
  unfold writeReply
  split
  · exact setPort_lines rfl
  · exact .refl s

theorem answer_lines (p : Port) (c : ResultCode) (b : List Byte) (s : State) : LinesStay s (answer p c b s) :=
  (respond_decides p c b s).lines.trans (writeReply_lines p _)

/-! ### Reads, the engine, expiries and mount -/

/-- The end of a tenure (R34). -/
theorem tenureEnded_lines (pl : Plane) (p : Port) (s : State) : LinesStay s (endTenure pl (setRead p none s)) :=
  (setRead_only p none s).lines.trans (endTenure_only pl _).lines

theorem execReadTenureEnd_lines {pl : Plane} {s t : State} (h : execReadTenureEnd pl s = .next t) : LinesStay s t := by
  unfold execReadTenureEnd at h
  repeat' split at h
  all_goals first | contradiction | obtain rfl := Host.Outcome.next.inj h
  · exact (tenureEnded_lines pl _ s).trans (answer_lines _ _ _ _)
  · exact .refl s
  · exact .refl s
  · exact .refl s
  · exact (endTenure_only pl s).lines
  · exact .refl s

theorem execOpenCopyLoad_lines {pl : Plane} {s t : State} (h : execOpenCopyLoad pl s = .next t) : LinesStay s t := by
  unfold execOpenCopyLoad at h
  repeat' split at h
  all_goals first | contradiction | obtain rfl := Host.Outcome.next.inj h
  · exact (tenureEnded_lines pl _ s).trans (answer_lines _ _ _ _)
  · exact ((tenureEnded_lines pl _ s).trans (setSession_only _ _ _).lines).trans (answer_lines _ _ _ _)
  · exact .refl s
  · exact .refl s
  · exact .refl s
  · exact (endTenure_only pl s).lines
  · exact .refl s

/-- The completion of a DELETE answers the reads that wait for its record; no completion moves a receiver (R109, R137). -/
theorem completeLayout_lines (e : Entry) (op : LayoutOp) (c : Plane) (g : Gen) (s : State) :
    LinesStay s (completeLayout e op c g s) := by
  refine ⟨fun q => ?_, (completeLayout_only e op c g s).csLow rfl⟩
  by_cases delete : ∃ r, op = .delete r
  · obtain ⟨r, rfl⟩ := delete
    have moved := PortView.recordGone_port r (portView s q)
    rw [← completeDelete_portView e r c g s q] at moved
    obtain same | ⟨code, answered⟩ := moved
    · exact congrArg PortIf.receiver same
    · exact (congrArg PortIf.receiver answered).trans (answeredWith_receiver code _)
  · obtain ⟨ports, -⟩ := completeLayout_reads e op c g s fun r hr => delete ⟨r, hr⟩
    rw [ports]

theorem completeEntry_lines (e : Entry) (s : State) : LinesStay s (completeEntry e s) := by
  unfold completeEntry
  repeat' split
  · exact (completeRecord_only _ _ _ _ _).lines
  · exact completeLayout_lines _ _ _ _ _
  · exact .refl s

theorem stepPassed_lines (e : Entry) (st : EngineStep) (s : State) : LinesStay s (stepPassed e st s) := by
  unfold stepPassed
  split
  · exact (askStep_only _ _ _).lines
  · exact completeEntry_lines _ _

/-- An attempt ends, passed or failed (R69). -/
theorem attempt_lines (e : Entry) (st : EngineStep) (pl : Plane) (page : Nat) (x : PageBytes) (s : State) (P : Prop)
    [Decidable P] :
    LinesStay s (if P then stepPassed e st (leavePage pl page x s) else stepFailed e st (leavePage pl page x s)) := by
  have left := (leavePage_only pl page x s).lines
  split
  · exact left.trans (stepPassed_lines _ _ _)
  · exact left.trans (stepFailed_only _ _ _).lines

theorem execEraseAttemptDone_lines {raised : PageBytes} {s t : State} (h : execEraseAttemptDone raised s = .next t) :
    LinesStay s t := by
  unfold execEraseAttemptDone at h
  repeat' split at h
  all_goals first | contradiction | obtain rfl := Host.Outcome.next.inj h
  · exact attempt_lines _ _ _ _ _ s _
  · exact .refl s
  · exact .refl s

theorem execProgramAttemptDone_lines {cleared : PageBytes} {s t : State}
    (h : execProgramAttemptDone cleared s = .next t) : LinesStay s t := by
  unfold execProgramAttemptDone at h
  repeat' split at h
  all_goals first | contradiction | obtain rfl := Host.Outcome.next.inj h
  · exact attempt_lines _ _ _ _ _ s _
  · exact .refl s
  · exact .refl s

theorem execInvalidationStep_lines {cleared : PageBytes} {s t : State} (h : execInvalidationStep cleared s = .next t) :
    LinesStay s t := by
  unfold execInvalidationStep at h
  repeat' split at h
  all_goals first | contradiction | obtain rfl := Host.Outcome.next.inj h
  · exact (leavePage_only _ _ _ s).lines.trans (failFault_only _ _).lines
  · exact .refl s
  · exact .refl s

theorem execEngineStart_lines {s t : State} (h : execEngineStart s = .next t) : LinesStay s t := by
  obtain rfl := Host.Outcome.next.inj h
  repeat' split
  · exact (setQueue_only _ s).lines.trans (startEntry_only _ _).lines
  · exact .refl s
  · exact .refl s

theorem execLeaseExpiry_lines {r : RecNo} {s t : State} (h : execLeaseExpiry r s = .next t) : LinesStay s t := by
  obtain rfl := Host.Outcome.next.inj h
  repeat' split
  · exact (raiseLeaseLost_only _ r s).lines.trans (handOn_only r _).lines
  · exact .refl s
  · exact .refl s

theorem execWaitExpiry_lines {r : RecNo} {p : Port} {s t : State} (h : execWaitExpiry r p s = .next t) :
    LinesStay s t := by
  obtain rfl := Host.Outcome.next.inj h
  split
  · exact Only.lines (h := { locks := true, reports := true, flags := true }) (.ofEq rfl)
  · exact .refl s

theorem execSupplyWarningRaised_lines {s t : State} (h : execSupplyWarningRaised s = .next t) : LinesStay s t := by
  obtain rfl := Host.Outcome.next.inj h
  repeat' split
  · exact .refl s
  · exact (setRc_only _ s).lines
  · exact (setRc_only _ s).lines
  · exact (setRc_only _ s).lines.trans (.forPorts (fun p u => (setFlags_only p _ u).lines) _)

theorem execMountStart_lines {s t : State} (h : execMountStart s = .next t) : LinesStay s t := by
  obtain rfl := Host.Outcome.next.inj h
  split
  · exact Only.lines (h := { arbiters := true, rc := true, mount := true }) (.ofEq rfl)
  · exact .refl s

theorem execMountLayoutSelected_lines {s t : State} (h : execMountLayoutSelected s = .next t) : LinesStay s t := by
  obtain rfl := Host.Outcome.next.inj h
  split
  · split
    · exact (endMount_only _ s).lines
    · exact (endMount_only _ s).lines
    · rename_i v entries _
      have loaded : LinesStay s (mounted s v entries) := Only.lines (h := { dir := true }) (.ofEq rfl)
      dsimp only
      split
      · exact loaded.trans (setMount_only _ _).lines
      · exact loaded.trans (endMount_only _ _).lines
  · exact .refl s

theorem mountOn_lines (r : RecNo) (s : State) : LinesStay s (mountOn r s) := by
  unfold mountOn
  split
  · exact (setMount_only _ s).lines
  · exact (endMount_only _ s).lines

theorem execMountSlotSet_lines {s t : State} (h : execMountSlotSet s = .next t) : LinesStay s t := by
  unfold execMountSlotSet at h
  repeat' split at h
  all_goals first | contradiction | obtain rfl := Host.Outcome.next.inj h
  · exact (setSlot_only _ _ s).lines.trans (mountOn_lines _ _)
  · exact .refl s
  · exact (endMount_only _ s).lines
  · exact .refl s

/-! ### One port's frame -/

/-- A port keeps its receiver and its chip select. -/
def FrameStays (p : Port) (s t : State) : Prop :=
  (t.ports.get p).receiver = (s.ports.get p).receiver ∧ t.csLow.get p = s.csLow.get p

theorem FrameStays.refl (p : Port) (s : State) : FrameStays p s s := ⟨rfl, rfl⟩

theorem FrameStays.trans {p : Port} {s t u : State} (x : FrameStays p s t) (y : FrameStays p t u) : FrameStays p s u := by
  obtain ⟨receiver, cs⟩ := x
  obtain ⟨receiver', cs'⟩ := y
  exact ⟨receiver'.trans receiver, cs'.trans cs⟩

theorem LinesStay.frame {s t : State} (x : LinesStay s t) (p : Port) : FrameStays p s t :=
  ⟨x.receiver p, by rw [x.csLow]⟩

/-- Another port's transport state and chip select change. -/
theorem frameStays_other {p q : Port} (h : p ≠ q) (x : PortIf) (low : Bool) (s : State) :
    FrameStays p s (setCs q low (setPort q x s)) :=
  ⟨by rw [setCs_ports, setPort_ports, PerPort.get_set_ne _ _ _ _ h], PerPort.get_set_ne _ _ _ _ h⟩

/-- What a frame on another port leaves alone. -/
theorem frameKeeps_other {p q : Port} (h : p ≠ q) (s : State) : FrameKeeps q (FrameStays p s) where
  fall u x := by
    unfold fallFrame
    split
    · exact x
    · exact x.trans (frameStays_other h _ _ u)
  clock bytes extra u x := by
    refine x.trans ⟨?_, by rw [(clockFrame_only q bytes extra u).csLow rfl]⟩
    unfold clockFrame
    repeat' split
    · rw [setPort_ports, PerPort.get_set_ne _ _ _ _ h]
    · rfl
    · rfl
  ends u x := x.trans (frameStays_other h _ _ u)
  outcome o u x := x.trans (LinesStay.frame (setPort_lines rfl : LinesStay u (recordOutcome q o u)) p)
  reply u x := x.trans ((writeReply_lines q u).frame p)

/-- A frame on another port, or a part of one. -/
theorem exec_otherFrame {p q : Port} {part : FramePart} {i : Instr} {s t : State} (framed : FrameOn q part i)
    (other : ∀ part, ¬FrameOn p part i) (h : exec i s = .next t) : FrameStays p s t := by
  have hq : p ≠ q := fun same => other part (same ▸ framed)
  have keeps := frameKeeps_other hq s
  obtain ⟨c, tag, body, rfl⟩ | ⟨sent, rfl⟩ | ⟨sent, rfl⟩ | ⟨bytes, extra, rfl⟩ := framed
  · rw [exec_command] at h
    obtain rfl := Host.Outcome.next.inj h
    refine keeps.takeRequest (.refl p s) c tag body part fun u _ x => ?_
    have accepted : LinesStay u (acceptRequest q tag u) := setPort_lines rfl
    exact x.trans ((accepted.trans (service_serves c q body _).lines).frame p)
  · obtain rfl := Host.Outcome.next.inj h
    exact keeps.takeFrame (.refl p s) _ 0 part fun _ x => x
  · obtain rfl := Host.Outcome.next.inj h
    exact keeps.takeFrame (.refl p s) _ 0 part fun _ x => x
  · obtain rfl := Host.Outcome.next.inj h
    split
    · exact keeps.takeFrame (.refl p s) _ _ part fun u x => keeps.outcome _ u x
    · exact keeps.takeFrame (.refl p s) _ 0 part fun _ x => x

theorem framesTaken_iff (s : State) (p : Port) :
    framesTaken s p = true ↔ resetInForce s = false ∧ s.clearLow.get p = false := by
  simp only [framesTaken, Bool.and_eq_true, Bool.not_eq_true']

/-- A clear line that falls ends the frame on its own port alone (R163). -/
theorem execPortClear_frame {p q : Port} {s t : State} (h : execPortClear q s = .next t)
    (taken : framesTaken t p = true) : FrameStays p s t := by
  have falls : Only { clearLow := true } s { s with clearLow := s.clearLow.set q true } := .ofEq rfl
  obtain ⟨-, high⟩ := (framesTaken_iff t p).mp taken
  obtain rfl := Host.Outcome.next.inj h
  simp only at high ⊢
  repeat' split
  · exact .refl p s
  · exact falls.lines.frame p
  · next awake free =>
    rw [if_neg awake, if_neg free, (clearPort_only q _).clearLow rfl] at high
    have hq : p ≠ q := fun same => by simp [same] at high
    refine (falls.lines.frame p).trans ⟨?_, by rw [(clearPort_only q _).csLow rfl]⟩
    rw [clearPort_eq]
    exact congrArg PortIf.receiver (PerPort.get_set_ne _ _ _ _ hq)

/-- A clear line that rises is not that of a port that takes frames (R163). -/
theorem execPortClearRelease_frame {p q : Port} {low : Bool} {s t : State} (h : execPortClearRelease q low s = .next t)
    (taken : framesTaken s p = true) : FrameStays p s t := by
  obtain ⟨-, high⟩ := (framesTaken_iff s p).mp taken
  obtain rfl := Host.Outcome.next.inj h
  split
  · next held =>
    have hq : p ≠ q := fun same => by simp [same, held] at high
    exact frameStays_other hq _ low { s with clearLow := s.clearLow.set q false }
  · exact .refl p s

/-- No reset is taken that leaves a port taking frames (R142). -/
theorem deviceReset_frame {p : Port} {src : ResetSource} {cut : PageBytes} {s : State}
    (taken : framesTaken (deviceReset src cut s) p = true) : FrameStays p s (deviceReset src cut s) := by
  obtain ⟨free, -⟩ := (framesTaken_iff _ p).mp taken
  rw [deviceReset_inForce] at free
  contradiction

/-- A release follows a reset, in which no port takes frames (R162). -/
theorem lastSource_inForce {s : State} (h : lastSource s.rc.sources = true) : resetInForce s = true := by
  rw [← Bool.not_eq_false, resetInForce_eq_false_iff]
  intro none
  rw [none] at h
  exact absurd h (by decide)

/-- While the port takes frames, no command but its own frames' parts moves its receiver or its chip select (R166). -/
theorem exec_frameStays {i : Instr} {p : Port} {s t : State} (h : exec i s = .next t)
    (other : ∀ part, ¬FrameOn p part i) (taken : framesTaken s p = true) (after : framesTaken t p = true) :
    FrameStays p s t := by
  cases i with
  | nop q tag body part => exact exec_otherFrame (.inl ⟨.nop, tag, body, rfl⟩) other h
  | queryRecord q tag body part => exact exec_otherFrame (.inl ⟨.queryRecord, tag, body, rfl⟩) other h
  | readRecord q tag body part => exact exec_otherFrame (.inl ⟨.readRecord, tag, body, rfl⟩) other h
  | deviceStatus q tag body part => exact exec_otherFrame (.inl ⟨.deviceStatus, tag, body, rfl⟩) other h
  | openRecord q tag body part => exact exec_otherFrame (.inl ⟨.openRecord, tag, body, rfl⟩) other h
  | stage q tag body part => exact exec_otherFrame (.inl ⟨.stage, tag, body, rfl⟩) other h
  | append q tag body part => exact exec_otherFrame (.inl ⟨.append, tag, body, rfl⟩) other h
  | commit q tag body part => exact exec_otherFrame (.inl ⟨.commit, tag, body, rfl⟩) other h
  | abandon q tag body part => exact exec_otherFrame (.inl ⟨.abandon, tag, body, rfl⟩) other h
  | fetchCommitResult q tag body part => exact exec_otherFrame (.inl ⟨.fetchCommitResult, tag, body, rfl⟩) other h
  | lock q tag body part => exact exec_otherFrame (.inl ⟨.lock, tag, body, rfl⟩) other h
  | unlock q tag body part => exact exec_otherFrame (.inl ⟨.unlock, tag, body, rfl⟩) other h
  | fetchLockReport q tag body part => exact exec_otherFrame (.inl ⟨.fetchLockReport, tag, body, rfl⟩) other h
  | watch q tag body part => exact exec_otherFrame (.inl ⟨.watch, tag, body, rfl⟩) other h
  | unwatch q tag body part => exact exec_otherFrame (.inl ⟨.unwatch, tag, body, rfl⟩) other h
  | fetchNotice q tag body part => exact exec_otherFrame (.inl ⟨.fetchNotice, tag, body, rfl⟩) other h
  | acknowledge q tag body part => exact exec_otherFrame (.inl ⟨.acknowledge, tag, body, rfl⟩) other h
  | setAttentionMask q tag body part => exact exec_otherFrame (.inl ⟨.setAttentionMask, tag, body, rfl⟩) other h
  | format q tag body part => exact exec_otherFrame (.inl ⟨.format, tag, body, rfl⟩) other h
  | define q tag body part => exact exec_otherFrame (.inl ⟨.define, tag, body, rfl⟩) other h
  | delete q tag body part => exact exec_otherFrame (.inl ⟨.delete, tag, body, rfl⟩) other h
  | setAccess q tag body part => exact exec_otherFrame (.inl ⟨.setAccess, tag, body, rfl⟩) other h
  | restart q tag body part => exact exec_otherFrame (.inl ⟨.restart, tag, body, rfl⟩) other h
  | fetch q sent part => exact exec_otherFrame (.inr (.inl ⟨sent, rfl⟩)) other h
  | poll q sent part => exact exec_otherFrame (.inr (.inr (.inl ⟨sent, rfl⟩))) other h
  | frameError q bytes extra part => exact exec_otherFrame (.inr (.inr (.inr ⟨bytes, extra, rfl⟩))) other h
  | readTenureEnd pl => exact (execReadTenureEnd_lines h).frame p
  | openCopyLoad pl => exact (execOpenCopyLoad_lines h).frame p
  | engineStart => exact (execEngineStart_lines h).frame p
  | eraseAttemptDone raised => exact (execEraseAttemptDone_lines h).frame p
  | programAttemptDone cleared => exact (execProgramAttemptDone_lines h).frame p
  | invalidationStep cleared => exact (execInvalidationStep_lines h).frame p
  | timebasePeriodEnd =>
    obtain rfl := Host.Outcome.next.inj h
    exact (Only.lines (h := { locks := true }) (.ofEq rfl)).frame p
  | leaseExpiry r => exact (execLeaseExpiry_lines h).frame p
  | waitExpiry r q => exact (execWaitExpiry_lines h).frame p
  | supplyWarningRaised => exact (execSupplyWarningRaised_lines h).frame p
  | supplyWarningRemoved =>
    obtain rfl := Host.Outcome.next.inj h
    split
    · exact (setRc_only _ s).lines.frame p
    · exact .refl p s
  | portClear q => exact execPortClear_frame h after
  | portClearRelease q low => exact execPortClearRelease_frame h taken
  | powerOnReset cut | supplyReset cut =>
    obtain rfl := Host.Outcome.next.inj h
    exact deviceReset_frame after
  | pinReset cut =>
    obtain rfl := Host.Outcome.next.inj h
    split at after <;> rename_i held
    · rw [if_pos held]
      exact .refl p s
    · rw [if_neg held]
      exact deviceReset_frame after
  | restartReset cut =>
    obtain rfl := Host.Outcome.next.inj h
    split at after <;> rename_i due
    · rw [if_pos due]
      exact deviceReset_frame after
    · rw [if_neg due]
      exact .refl p s
  | resetRelease straps low =>
    obtain ⟨free, -⟩ := (framesTaken_iff s p).mp taken
    have held : ¬lastSource s.rc.sources = true := fun last => by simp [lastSource_inForce last] at free
    rw [exec_resetRelease_not held] at h
    exact Host.Outcome.next.inj h ▸ .refl p s
  | mountStart => exact (execMountStart_lines h).frame p
  | mountLayoutSelected => exact LinesStay.frame (s := s) (t := t) (execMountLayoutSelected_lines h) p
  | mountSlotSet => exact (execMountSlotSet_lines h).frame p
  | sourceLetsGo src =>
    obtain rfl := Host.Outcome.next.inj h
    split
    · exact (setRc_only _ s).lines.frame p
    · exact .refl p s

end Sys2Proof.Machine

namespace Sys2Proof.Machine

open Sys2Proof

/-! ## The fall of chip select (R167, R175, R176) -/

theorem exec_fall {s : State} {p : Port} {i : Instr} (h : FrameOn p .fall i) (can : CanFrame s p) :
    exec i s = .next { s with
      csLow := s.csLow.set p true
      ports := s.ports.set p { s.ports.get p with receiver := .receiving (snapshot s p) } } :=
  exec_frame h (by decide) (inProgress_set_receiver s p _) fun _ _ _ => fallFrame_taken p s can

/-! ## The bits (R166, R169) -/

/-- A single byte and 0xFF after it. -/
theorem shifted_singleton (b : Byte) (n : Nat) :
    shifted [b] (n + 1) 0 = { bytes := b :: List.replicate n 0xFF, tail := [] } := by
  rw [shifted_whole, List.singleton_append, List.take_succ_cons, List.take_replicate, Nat.min_eq_left (Nat.le_succ n)]

theorem frameBits_requestFrameBytes (c : RequestCode) (tag : Byte) (body : List Byte) :
    frameBits (requestFrameBytes c tag body) 0 = 8 * (5 + body.length) := by
  rw [frameBits, requestFrameBytes_length, Nat.add_zero]

section Clock

variable {s : State} {p : Port} {f : FrameIn} (hf : (s.ports.get p).receiver = .receiving f) (h0 : f.bits = 0)

include hf h0

theorem exec_request_clock (c : RequestCode) (tag : Byte) {body : List Byte} (hb : body.length ≤ 252) :
    exec (c.command p tag body .clock) s = .next { s with ports := s.ports.set p { s.ports.get p with
      receiver := .receiving { f with bits := 8 * (5 + body.length), bytes := requestFrameBytes c tag body }
      sdo := { bytes := f.status :: List.replicate (4 + body.length) 0xFF, tail := [] } } } := by
  have clocked : exec (c.command p tag body .clock) s = .next (clockFrame p (requestFrameBytes c tag body) 0 s) :=
    exec_command c p tag body .clock s
  rw [clocked, clockFrame_receiving p _ 0 s f hf h0 (frameBits_request c tag body), frameStream_request,
    take_requestFrameBytes c tag body hb, frameBits_requestFrameBytes, requestFrameBytes_length,
    show 5 + body.length = 4 + body.length + 1 by omega, shifted_singleton]

/-- A FETCH or a POLL is clocked with the bytes sent after its type. -/
theorem clockFrame_cons (b : Byte) (sent : List Byte) :
    clockFrame p (b :: sent) 0 s = { s with ports := s.ports.set p { s.ports.get p with
      receiver := .receiving { f with bits := 8 * (1 + sent.length), bytes := (b :: sent).take 257 }
      sdo := { bytes := (frameStream f (b :: sent) ++ List.replicate (1 + sent.length) 0xFF).take (1 + sent.length)
               tail := [] } } } := by
  rw [clockFrame_receiving p _ 0 s f hf h0 (frameBits_cons_ne_zero b sent), frameBits_cons, List.length_cons,
    Nat.add_comm sent.length, shifted_whole]
  rfl

theorem exec_fetch_clock {head : List Byte} (sent : List Byte)
    (shown : (∃ r, f.slot = some r ∧ head = [f.status, r.tag, r.code.toByte, BitVec.ofNat 8 r.body.length,
        BitVec.ofNat 8 (r.body.length / 256)] ++ r.body) ∨
      (f.slot = none ∧ head = [f.status, f.tag, 0x04, 0, 0])) :
    exec (.fetch p sent .clock) s = .next { s with ports := s.ports.set p { s.ports.get p with
      receiver := .receiving { f with bits := 8 * (1 + sent.length), bytes := (0xA2 :: sent).take 257 }
      sdo := { bytes := (head ++ [crc8 head] ++ List.replicate (1 + sent.length) 0xFF).take (1 + sent.length)
               tail := [] } } } := by
  rw [← fetchStream_eq shown]
  exact congrArg Host.Outcome.next (clockFrame_cons hf h0 0xA2 sent)

theorem exec_poll_clock (sent : List Byte) :
    exec (.poll p sent .clock) s = .next { s with ports := s.ports.set p { s.ports.get p with
      receiver := .receiving { f with bits := 8 * (1 + sent.length), bytes := (0xA3 :: sent).take 257 }
      sdo := { bytes := (f.status :: flagsBytes f.flags ++
                 List.replicate (1 + sent.length) 0xFF).take (1 + sent.length)
               tail := [] } } } :=
  congrArg Host.Outcome.next (clockFrame_cons hf h0 0xA3 sent)

theorem exec_frameError_clock {bytes : List Byte} {extra : Nat} (error : frameVerdict bytes extra = .frameError) :
    exec (.frameError p bytes extra .clock) s = .next { s with ports := s.ports.set p { s.ports.get p with
      receiver := .receiving { f with bits := 8 * bytes.length + extra, bytes := bytes.take 257 }
      sdo := shifted (frameStream f bytes) bytes.length extra } } :=
  (exec_frameError .clock error).trans
    (congrArg Host.Outcome.next (clockFrame_receiving p bytes extra s f hf h0 (frameBits_ne_zero error)))

end Clock

/-! ## The rise of chip select (R170) -/

/-- The judgement of a frame that records an outcome alone. -/
theorem recordOutcome_endFrame (p : Port) (o : FrameOutcome) (s : State) :
    recordOutcome p o (endFrame p s) = { s with
      csLow := s.csLow.set p false
      ports := s.ports.set p { s.ports.get p with receiver := .idle, outcome := o } } := by
  simp only [recordOutcome, setPort, endFrame_eq, PerPort.get_set_self, PerPort.set_set]

theorem judgeRequest_busy {p : Port} {tag : Byte} {body : List Byte} {serve : State → State} {s : State}
    (hb : body.length ≤ 252) (busy : (s.ports.get p).inProgress ≠ none) :
    judgeRequest p tag body serve s = recordOutcome p .busy s := by
  have fits : ¬Config.maxBody < body.length := Nat.not_lt.mpr hb
  rw [judgeRequest, if_neg fits, if_pos (Option.isSome_iff_ne_none.mpr busy)]

theorem judgeRequest_accepted {p : Port} {tag : Byte} {body : List Byte} {serve : State → State} {s : State}
    (hb : body.length ≤ 252) (free : (s.ports.get p).inProgress = none) :
    judgeRequest p tag body serve s = serve (acceptRequest p tag s) := by
  have fits : ¬Config.maxBody < body.length := Nat.not_lt.mpr hb
  rw [judgeRequest, if_neg fits, if_neg (by simp [free])]

theorem endFrame_inProgress (p : Port) (s : State) :
    ((endFrame p s).ports.get p).inProgress = (s.ports.get p).inProgress := inProgress_set_receiver s p .idle

section Rise

variable {s : State} {p : Port} {f : FrameIn} (hc : s.csLow.get p = true)
  (hf : (s.ports.get p).receiver = .receiving f)

include hc hf

theorem exec_rise_nothing {i : Instr} (h : FrameOn p .rise i) (h0 : f.bits = 0) : exec i s = .next (endFrame p s) :=
  exec_frame h (by decide) (endFrame_inProgress p s) fun bytes extra judge =>
    riseFrame_nothing p bytes extra judge s hc fun f' hf' => by
      rw [hf] at hf'
      rwa [← ReceiverState.receiving.inj hf']

/-- A FETCH or a POLL is over and leaves nothing. -/
theorem riseFrame_cons {b : Byte} {sent : List Byte} (bits : f.bits = 8 * (1 + sent.length))
    (bytes : f.bytes = (b :: sent).take 257) : riseFrame p (b :: sent) 0 id s = endFrame p s :=
  riseFrame_judged p _ 0 id s f hc hf (frameBits_cons_ne_zero b sent) (bits.trans (frameBits_cons b sent).symm) bytes

theorem exec_frameError_rise {bytes : List Byte} {extra : Nat} (error : frameVerdict bytes extra = .frameError)
    (bits : f.bits = 8 * bytes.length + extra) (kept : f.bytes = bytes.take 257) :
    exec (.frameError p bytes extra .rise) s = .next (recordOutcome p .frameError (endFrame p s)) :=
  (exec_frameError .rise error).trans
    (congrArg Host.Outcome.next (riseFrame_judged p bytes extra _ s f hc hf (frameBits_ne_zero error) bits kept))

theorem exec_request_rise {c : RequestCode} {tag : Byte} {body : List Byte} (hb : body.length ≤ 252)
    (bits : f.bits = 8 * (5 + body.length)) (bytes : f.bytes = requestFrameBytes c tag body) :
    exec (c.command p tag body .rise) s = .next (judgeRequest p tag body (service c p body) (endFrame p s)) := by
  rw [exec_command]
  exact congrArg Host.Outcome.next (riseFrame_judged p _ 0 _ s f hc hf (frameBits_request c tag body)
    (bits.trans (frameBits_requestFrameBytes c tag body).symm) (bytes.trans (take_requestFrameBytes c tag body hb).symm))

end Rise

/-- The port of a request that has been accepted (R170). -/
theorem acceptRequest_port (p : Port) (tag : Byte) (s : State) :
    (acceptRequest p tag s).ports.get p =
      { s.ports.get p with response := none, due := none, inProgress := some tag, outcome := .accepted } :=
  PerPort.get_set_self _ _ _

/-- An accepted request, served: the slot is empty and the mark set, whatever else its service does (R170, R171). -/
theorem acceptRequest_served {s t : State} {p : Port} {c : RequestCode} {tag : Byte} {body : List Byte}
    (noRead : s.reads.get p = none) (served : service c p body (acceptRequest p tag (endFrame p s)) = t) :
    t.csLow = s.csLow.set p false ∧
      t.ports.get p = { receiver := .idle, outcome := .accepted, inProgress := some tag, response := none
                        due := (t.ports.get p).due, sdo := (s.ports.get p).sdo } := by
  subst served
  obtain ⟨lines, -, own⟩ := service_serves c p body (acceptRequest p tag (endFrame p s))
  have kept := own noRead
  rw [acceptRequest_port, endFrame_eq, PerPort.get_set_self] at kept
  exact ⟨lines.csLow, kept⟩

/-! ## The writing of the response (R171, R174) -/

theorem exec_reply (c : RequestCode) (p : Port) (tag : Byte) (body : List Byte) (s : State) :
    exec (c.command p tag body .reply) s =
      .next (if (s.ports.get p).inProgress = some tag then writeReply p s else s) := exec_command c p tag body .reply s

/-- The reply part of a request that is in progress, or that its own service has ended, writes what is due (R45). -/
theorem exec_reply_writes {c : RequestCode} {p : Port} {tag : Byte} {body : List Byte} {s : State}
    (h : (s.ports.get p).inProgress = some tag ∨ (s.ports.get p).inProgress = none) :
    exec (c.command p tag body .reply) s = .next (writeReply p s) := by
  rw [exec_reply]
  split
  · rfl
  · next other => rw [writeReply_idle p s (h.resolve_left other)]

theorem exec_reply_nothing {c : RequestCode} {p : Port} {tag : Byte} {body : List Byte} {s : State}
    (h : (s.ports.get p).inProgress ≠ some tag ∨ (s.ports.get p).due = none) :
    exec (c.command p tag body .reply) s = .next s := by
  rw [exec_reply]
  split
  · next same => rw [writeReply_none p s (h.resolve_left (not_not_intro same))]
  · rfl

/-! ## The parts and the whole -/

/-- What the judgement of a request on a free port leaves in progress: it, or nothing. -/
theorem judgeRequest_inProgress {p : Port} {tag : Byte} {body : List Byte} {s : State} (c : RequestCode)
    (hb : body.length ≤ 252) (free : (s.ports.get p).inProgress = none) :
    ((judgeRequest p tag body (service c p body) s).ports.get p).inProgress = some tag ∨
      ((judgeRequest p tag body (service c p body) s).ports.get p).inProgress = none := by
  have kept := (service_serves c p body (acceptRequest p tag s)).inProgress
  rw [acceptRequest_port] at kept
  rwa [judgeRequest_accepted hb free]

theorem takeFrame_request_inProgress {s t : State} {p : Port} (can : CanFrame s p) {c : RequestCode} {tag : Byte}
    {body : List Byte} (hb : body.length ≤ 252) (free : (s.ports.get p).inProgress = none)
    (taken : takeFrame p (requestFrameBytes c tag body) 0 (judgeRequest p tag body (service c p body)) .whole s = t) :
    (t.ports.get p).inProgress = some tag ∨ (t.ports.get p).inProgress = none := by
  subst taken
  rw [takeFrame_taken p _ 0 _ s can (frameBits_request c tag body)]
  exact judgeRequest_inProgress c hb (by rw [PerPort.get_set_self]; exact free)

/-- A whole request on a free port is its four parts. -/
theorem request_parts {s : State} {p : Port} (can : CanFrame s p) (c : RequestCode) (tag : Byte) {body : List Byte}
    (free : (s.ports.get p).inProgress = none) (hb : body.length ≤ 252) :
    ∃ s1 s2 s3 t, exec (c.command p tag body .fall) s = .next s1 ∧ exec (c.command p tag body .clock) s1 = .next s2 ∧
      exec (c.command p tag body .rise) s2 = .next s3 ∧ exec (c.command p tag body .reply) s3 = .next t ∧
      exec (c.command p tag body) s = .next t := by
  refine ⟨_, _, _, _, exec_command c p tag body .fall s, exec_command c p tag body .clock _,
    exec_command c p tag body .rise _, exec_reply_writes (takeFrame_request_inProgress can hb free rfl), ?_⟩
  rw [exec_command]
  simp only [takeRequest, free]
  rfl

/-- A whole frame in error, or one that a FRAME_ERROR command does not clock, is its three parts. -/
theorem frameError_parts (s : State) (p : Port) (bytes : List Byte) (extra : Nat) :
    ∃ s1 s2 t, exec (.frameError p bytes extra .fall) s = .next s1 ∧
      exec (.frameError p bytes extra .clock) s1 = .next s2 ∧ exec (.frameError p bytes extra .rise) s2 = .next t ∧
      exec (.frameError p bytes extra) s = .next t := by
  by_cases error : frameVerdict bytes extra = .frameError
  · exact ⟨_, _, _, exec_frameError .fall error, exec_frameError .clock error, exec_frameError .rise error,
      exec_frameError .whole error⟩
  · have empty : ∀ part u, exec (.frameError p bytes extra part) u = .next (takeFrame p [] 0 id part u) := fun part u =>
      congrArg Host.Outcome.next (if_neg error)
    exact ⟨_, _, _, empty .fall s, empty .clock _, empty .rise _, empty .whole s⟩

/-- Settles O52: the fall, what happens until the rise, the bits, the rise, the response, and the parts put together. -/
theorem framesByParts : Obligations.FramesByParts := by
  refine ⟨fun s p i h can => exec_fall h can, fun s t p i f hf h other taken after => ?_,
    fun s p f sent head hf h0 => ⟨fun c tag body hb => exec_request_clock hf h0 c tag hb,
      exec_fetch_clock hf h0 sent, exec_poll_clock hf h0 sent, fun bytes extra error => ?_⟩,
    fun s p f hc hf => ?_, fun s p c tag body => ⟨fun r inProgress due => ?_, exec_reply_nothing⟩,
    fun s p can => ⟨fun c tag body free hb => request_parts can c tag free hb, fun sent => ?_, fun sent => ?_,
      frameError_parts s p⟩⟩
  · obtain ⟨receiver, cs⟩ := exec_frameStays h other taken after
    exact ⟨receiver.trans hf, cs⟩
  · have clocked := exec_frameError_clock hf h0 error
    rw [frameStream_eq] at clocked
    exact clocked
  · refine ⟨fun i h h0 => exec_rise_nothing hc hf h h0, fun sent bits => ⟨fun bytes => ?_, fun bytes => ?_⟩,
      fun bytes extra error bits kept => ?_, fun c tag body hb bits bytes => ⟨fun busy => ?_, fun free noRead => ?_⟩⟩
    · exact congrArg Host.Outcome.next (riseFrame_cons hc hf bits bytes)
    · exact congrArg Host.Outcome.next (riseFrame_cons hc hf bits bytes)
    · rw [exec_frameError_rise hc hf error bits kept, recordOutcome_endFrame]
    · rw [exec_request_rise hc hf hb bits bytes, judgeRequest_busy hb (by rwa [endFrame_inProgress]),
        recordOutcome_endFrame]
    · refine ⟨_, exec_request_rise hc hf hb bits bytes, ?_⟩
      rw [judgeRequest_accepted hb (by rwa [endFrame_inProgress])]
      exact acceptRequest_served noRead rfl
  · rw [exec_reply_writes (.inl inProgress), writeReply_due p tag r s inProgress due]
  · exact ⟨_, _, _, rfl, rfl, rfl, rfl⟩
  · exact ⟨_, _, _, rfl, rfl, rfl, rfl⟩

end Sys2Proof.Machine

namespace Sys2Proof.Machine

open Sys2Proof

/-! ## The step (logs 1 and 2) -/

/-- `exec` sees the queue without the command it runs. -/
theorem step_pending_cons (c : Instr) (rest : List Instr) (s : State) :
    step { s with pending := c :: rest } = exec c { s with pending := rest } := rfl

theorem step_pending_nil {s : State} (idle : s.pending = []) : step s = .next s := by
  rw [step, idle]

/-- Settles O1: the two branches of the queue, a command in front and none waiting. -/
theorem stepTakesTheFrontCommand : Obligations.StepTakesTheFrontCommand :=
  ⟨step_pending_cons, fun _ => step_pending_nil⟩

end Sys2Proof.Machine
